-- ==== Sys2Proof/Word.lean ====
section
/-! DEFINITION. The widths of the frame-codec core's values (spec rules R8, R9): a byte is 8 bits,
buffer indices and name identifiers are 16 bits, descriptor words are 32 bits. -/

namespace Sys2Proof

/-- "A byte is 8 bits" (R9). -/
abbrev Byte := BitVec 8

/-- Indices, lengths, cursors and name identifiers are 16 bits (R8). -/
abbrev Half := BitVec 16

/-- Descriptor words are 32 bits (R8), and so are the widest registers (R28, R30). -/
abbrev Word := BitVec 32

end Sys2Proof
end

