-- ==== Sys2Proof/Syntax.lean ====
section
/-! DEFINITION. The abstract syntax: one constructor per row of spec/opcode_table.json. Rule R3: the
"instructions" of the FCC are the twelve host commands (R82), with the reserved opcodes that raise
BadCommand (R83), and the descriptor words of the payload interpreter's program (R88, R90). -/

namespace Sys2Proof

/-- The fields of a descriptor head word below its tag, format DESC32 (R85). -/
structure Head where
  /-- bit 27: the field is the one "named for 'message length'" -/
  l : BitVec 1
  /-- bits 26:24, reserved -/
  rsv : BitVec 3
  /-- bits 23:16: declared size in bytes, or the number of range words -/
  size : BitVec 8
  /-- bits 15:0: name identifier -/
  name : Half
  deriving DecidableEq, Repr, Inhabited

/-- The fields of a range word below its tag, format RANGE32 (R90). -/
structure RangeFields where
  /-- bits 27:23, reserved -/
  rsvHi : BitVec 5
  /-- bits 22:20: end-bit -/
  stop : BitVec 3
  /-- bit 19, reserved -/
  rsvLo : BitVec 1
  /-- bits 18:16: start-bit -/
  start : BitVec 3
  /-- bits 15:0: sub-name identifier -/
  sub : Half
  deriving DecidableEq, Repr, Inhabited

/-- Every row of spec/opcode_table.json. Commands carry no fields: their operands are registers (R80). -/
inductive Instr where
  /-- CMD8 0x00 (R284) -/
  | nop
  /-- CMD8 0x01 (R110) -/
  | chksum
  /-- CMD8 0x02 (R125) -/
  | crc16
  /-- CMD8 0x03 (R130) -/
  | tblrd
  /-- CMD8 0x04 (R141) -/
  | bitx
  /-- CMD8 0x05 (R144) -/
  | bitc
  /-- CMD8 0x06 (R148) -/
  | dctl
  /-- CMD8 0x07 (R161) -/
  | interp
  /-- CMD8 0x08 (R205) -/
  | parsea
  /-- CMD8 0x09 (R220) -/
  | parseb
  /-- CMD8 0x0A (R232) -/
  | parsec
  /-- CMD8 0x0B (R261) -/
  | enca
  /-- CMD8 0x0C..0x0F, reserved (R83): `low` is the opcode's bits 1:0 -/
  | reserved0c (low : BitVec 2)
  /-- CMD8 0x10..0x1F, reserved (R83): `low` is the opcode's bits 3:0 -/
  | reserved10 (low : BitVec 4)
  /-- CMD8 0x20..0x3F, reserved (R83): `low` is the opcode's bits 4:0 -/
  | reserved20 (low : BitVec 5)
  /-- CMD8 0x40..0x7F, reserved (R83): `low` is the opcode's bits 5:0 -/
  | reserved40 (low : BitVec 6)
  /-- CMD8 0x80..0xFF, reserved (R83): `low` is the opcode's bits 6:0 -/
  | reserved80 (low : BitVec 7)
  /-- DESC32 tag 0, END (R166) -/
  | endList (h : Head)
  /-- DESC32 tag 1, fixed-binary (R168) -/
  | bin (h : Head)
  /-- DESC32 tag 2, bit-composite (R170) -/
  | bs (h : Head)
  /-- DESC32 tag 3, text (R172) -/
  | ascii (h : Head)
  /-- DESC32 tag 4, BCD-date (R174) -/
  | bcdDate (h : Head)
  /-- DESC32 tag 5, BCD (R175) -/
  | bcd (h : Head)
  /-- DESC32 tag 6, length-prefixed content (R176) -/
  | content (h : Head)
  /-- RANGE32, tag 7 (R90, R146) -/
  | range (r : RangeFields)
  /-- DESC32 tags 8..15, unrecognised (R167): `t` is the tag's low three bits -/
  | unknownTag (t : BitVec 3) (h : Head)
  deriving DecidableEq, Repr, Inhabited

end Sys2Proof
end

