-- ==== Sys2Proof/WellFormed.lean ====
section
/-! DEFINITION. Which instructions the encoding rules call well formed: the "must be" column of R88, the
reserved bits of R85 and R90, L only on BIN, and a range's start-bit ≤ end-bit (R90). An ill-formed
descriptor word is still an instruction: it raises DictionaryError when it is reached (R89). -/

namespace Sys2Proof

/-- A head word whose reserved bits are zero and whose L bit is clear: every tag but BIN (R89 c). -/
def Head.plain (h : Head) : Bool := h.l == 0#1 && h.rsv == 0#3

/-- The four fields of the all-zero END word (R89 d). -/
def Head.zero : Head := ⟨0, 0, 0, 0⟩

/-- Reserved bits zero and start-bit ≤ end-bit (R90). -/
def RangeFields.ok (r : RangeFields) : Bool :=
  r.rsvHi == 0#5 && r.rsvLo == 0#1 && decide (r.start.toNat ≤ r.stop.toNat)

/-- The encodings the spec calls legal. A command has no field to break; every reserved opcode and every
unrecognised tag is a whole row of the table. -/
def Instr.wf : Instr → Bool
  | .nop | .chksum | .crc16 | .tblrd | .bitx | .bitc | .dctl | .interp => true
  | .parsea | .parseb | .parsec | .enca => true
  | .reserved0c _ | .reserved10 _ | .reserved20 _ | .reserved40 _ | .reserved80 _ => true
  | .endList h => h == Head.zero
  | .bin h => h.rsv == 0#3
  | .bs h => h.plain
  | .ascii h => h.plain
  | .bcdDate h => h.plain && h.size == 3#8
  | .bcd h => h.plain && h.size == 2#8
  | .content h => h.plain && h.size == 0#8
  | .range r => r.ok
  | .unknownTag _ _ => true

end Sys2Proof
end

