-- ==== Sys2Proof/Decode.lean ====
section
/-! DEFINITION. The decoder and the encoder, both written from R81, R82, R83 (commands), R85, R88 (head
words) and R90 (range words). There are two formats: CMD8, the 8 bits written to CMD, and the 32-bit DROM
word; neither has a byte order (R70, R80). Every 8-bit and every 32-bit pattern decodes; any other width is
rejected by name. -/

namespace Sys2Proof

/-- Why a bit pattern is no instruction. -/
inductive DecodeError where
  /-- no instruction format has this many bits -/
  | noFormat (nbits : Nat)
  /-- the number does not fit in the bits given -/
  | tooWide (nbits : Nat)
  deriving DecidableEq, Repr

/-- One stored instruction: a command opcode or a DROM word. -/
inductive Encoded where
  | cmd (opc : Byte)
  | desc (w : Word)
  deriving DecidableEq, Repr

/-- The command opcode map (R82, R83). -/
def decodeCmd (opc : Byte) : Instr :=
  if opc = 0x00#8 then .nop
  else if opc = 0x01#8 then .chksum
  else if opc = 0x02#8 then .crc16
  else if opc = 0x03#8 then .tblrd
  else if opc = 0x04#8 then .bitx
  else if opc = 0x05#8 then .bitc
  else if opc = 0x06#8 then .dctl
  else if opc = 0x07#8 then .interp
  else if opc = 0x08#8 then .parsea
  else if opc = 0x09#8 then .parseb
  else if opc = 0x0A#8 then .parsec
  else if opc = 0x0B#8 then .enca
  else if opc.toNat < 0x10 then .reserved0c (opc.extractLsb' 0 2)
  else if opc.toNat < 0x20 then .reserved10 (opc.extractLsb' 0 4)
  else if opc.toNat < 0x40 then .reserved20 (opc.extractLsb' 0 5)
  else if opc.toNat < 0x80 then .reserved40 (opc.extractLsb' 0 6)
  else .reserved80 (opc.extractLsb' 0 7)

/-- Bits 31:28 of a DROM word (R85, R90). -/
def wordTag (w : Word) : BitVec 4 := w.extractLsb' 28 4

/-- Bits 15:0 of a DROM word: the name or sub-name identifier (R85, R90). -/
def wordName (w : Word) : Half := w.extractLsb' 0 16

/-- The DESC32 fields (R85, R145). -/
def wordHead (w : Word) : Head :=
  ⟨w.extractLsb' 27 1, w.extractLsb' 24 3, w.extractLsb' 16 8, wordName w⟩

/-- The RANGE32 fields (R90). -/
def wordRange (w : Word) : RangeFields :=
  ⟨w.extractLsb' 23 5, w.extractLsb' 20 3, w.extractLsb' 19 1, w.extractLsb' 16 3, wordName w⟩

/-- The descriptor tag map (R88). -/
def decodeDesc (w : Word) : Instr :=
  let t := wordTag w
  if t = 0#4 then .endList (wordHead w)
  else if t = 1#4 then .bin (wordHead w)
  else if t = 2#4 then .bs (wordHead w)
  else if t = 3#4 then .ascii (wordHead w)
  else if t = 4#4 then .bcdDate (wordHead w)
  else if t = 5#4 then .bcd (wordHead w)
  else if t = 6#4 then .content (wordHead w)
  else if t = 7#4 then .range (wordRange w)
  else .unknownTag (w.extractLsb' 28 3) (wordHead w)

/-- The decoder over stored instructions: total. -/
def decodeStored : Encoded → Instr
  | .cmd opc => decodeCmd opc
  | .desc w => decodeDesc w

/-- The decoder over a bit pattern of a stated width, rejecting by name. -/
def decode (nbits w : Nat) : Except DecodeError Instr :=
  if nbits = 8 then
    if w < 2 ^ 8 then .ok (decodeStored (.cmd (BitVec.ofNat 8 w))) else .error (.tooWide 8)
  else if nbits = 32 then
    if w < 2 ^ 32 then .ok (decodeStored (.desc (BitVec.ofNat 32 w))) else .error (.tooWide 32)
  else .error (.noFormat nbits)

/-- The instruction the decoder reads from a row's bits as spec/opcode_table.json numbers them. -/
def decodeTableWord (nbits w : Nat) : Option Instr := (decode nbits w).toOption

/-- A DESC32 word from its tag and fields (R85). -/
def packHead (tag : BitVec 4) (h : Head) : Word := tag ++ h.l ++ h.rsv ++ h.size ++ h.name

/-- A RANGE32 word from its fields (R90). -/
def packRange (r : RangeFields) : Word :=
  7#4 ++ r.rsvHi ++ r.stop ++ r.rsvLo ++ r.start ++ r.sub

/-- The stored form of an instruction (R82, R83, R85, R88, R90). -/
def encode : Instr → Encoded
  | .nop => .cmd 0x00#8
  | .chksum => .cmd 0x01#8
  | .crc16 => .cmd 0x02#8
  | .tblrd => .cmd 0x03#8
  | .bitx => .cmd 0x04#8
  | .bitc => .cmd 0x05#8
  | .dctl => .cmd 0x06#8
  | .interp => .cmd 0x07#8
  | .parsea => .cmd 0x08#8
  | .parseb => .cmd 0x09#8
  | .parsec => .cmd 0x0A#8
  | .enca => .cmd 0x0B#8
  | .reserved0c x => .cmd (0b000011#6 ++ x)
  | .reserved10 x => .cmd (0b0001#4 ++ x)
  | .reserved20 x => .cmd (0b001#3 ++ x)
  | .reserved40 x => .cmd (0b01#2 ++ x)
  | .reserved80 x => .cmd (0b1#1 ++ x)
  | .endList h => .desc (packHead 0#4 h)
  | .bin h => .desc (packHead 1#4 h)
  | .bs h => .desc (packHead 2#4 h)
  | .ascii h => .desc (packHead 3#4 h)
  | .bcdDate h => .desc (packHead 4#4 h)
  | .bcd h => .desc (packHead 5#4 h)
  | .content h => .desc (packHead 6#4 h)
  | .range r => .desc (packRange r)
  | .unknownTag t h => .desc (packHead (1#1 ++ t) h)

end Sys2Proof
end

