-- ==== Sys2Proof/Machine/Record.lean ====
section
/-! DEFINITION. The record store's typed entries (R23, R163): the logical content of D00's DecodedRecord. The
physical packing of an entry is not specified (U23), so an entry is held as typed data. -/

namespace Sys2Proof.Machine

/-- One bit-sub-value of a bit-composite: sub-name, start-bit, end-bit, value (R146, R163). -/
structure SubValue where
  sub : Half
  start : BitVec 3
  stop : BitVec 3
  value : Byte
  deriving DecidableEq, Repr, Inhabited

/-- The typed value of an entry, one constructor per kind (R163). -/
inductive RecValue where
  /-- `(n, v)`: byte count and unsigned integer of 8·n bits -/
  | bin (n : Byte) (v : Nat)
  /-- `(b, subs)`: the byte read and its sub-values in textual order -/
  | bs (b : Byte) (subs : List SubValue)
  /-- character codes, in wire order -/
  | ascii (codes : List Byte)
  /-- `(century, yh, yl, mh, ml, dh, dl)` -/
  | bcdDate (century : Byte) (yh yl mh ml dh dl : BitVec 4)
  /-- `(ah, al, bh, bl)` -/
  | bcd (ah al bh bl : BitVec 4)
  /-- bytes in wire order after the DEOBF subtraction -/
  | content (bytes : List Byte)
  deriving DecidableEq, Repr, Inhabited

/-- An entry `(dp, name, kind, value)` (R23); `kind` is `RecEntry.kind`. -/
structure RecEntry where
  /-- DROM index of the descriptor -/
  dp : Half
  /-- the descriptor's name identifier -/
  name : Half
  value : RecValue
  deriving DecidableEq, Repr, Inhabited

/-- The kind of a value is the descriptor's tag (R23, R163). -/
def RecValue.kind : RecValue → BitVec 4
  | .bin _ _ => 1
  | .bs _ _ => 2
  | .ascii _ => 3
  | .bcdDate _ _ _ _ _ _ _ => 4
  | .bcd _ _ _ _ => 5
  | .content _ => 6

/-- The `kind` component of an entry (R23). -/
def RecEntry.kind (e : RecEntry) : BitVec 4 := e.value.kind

end Sys2Proof.Machine
end

