-- ==== Sys2Proof/Config.lean ====
section
/-! DEFINITION. The configuration (R7, R39 to R42), which no command changes, and the free values. A
configuration is plain data carried by the state, so that every statement holds for every configuration. What
the spec leaves unspecified ("any value", U1 to U4) is an opaque constant: nothing in Lean can evaluate it. -/

namespace Sys2Proof

/-- A control-byte bit range `(start, end)` (R7, R147); both ends are bit numbers 0..7. -/
structure BitRange where
  start : BitVec 3
  stop : BitVec 3
  deriving DecidableEq, Repr, Inhabited

/-- "start ≤ end ≤ 7" (R7, R149); the second part holds by the width. -/
def BitRange.ok (r : BitRange) : Bool := decide (r.start.toNat ≤ r.stop.toNat)

/-- The bits of a byte that the range names. -/
def BitRange.mask (r : BitRange) : Byte :=
  ((1#8 <<< (r.stop.toNat - r.start.toNat + 1)) - 1#8) <<< r.start.toNat

/-- `LAYOUT[p]`: for each ControlInfo field a range or `none` (R7, R31, R149). -/
structure Layout where
  dir : Option BitRange
  prm : Option BitRange
  addr : Option BitRange
  ver : Option BitRange
  func : Option BitRange
  deriving DecidableEq, Repr, Inhabited

/-- Every defined range has start ≤ end (R149, R334). -/
def Layout.ok (l : Layout) : Bool :=
  [l.dir, l.prm, l.addr, l.ver, l.func].all fun r => r.all BitRange.ok

/-- The registers that PARSEB alone writes before the lookup: the address header, the trailing byte and the header
CRC with its flag (R223, R226, R227). -/
structure HeaderView where
  bAtype : BitVec 2
  bLaddr : BitVec 2
  bTrail : Byte
  hkDecl : Half
  hkComp : Half
  hkValid : Bool
  deriving DecidableEq, Repr, Inhabited

/-- What a lookup-key function of Protocols B and C may look at: "the result registers written so far and the
payload bytes" (R228, R239). ADDR0 stands with its valid bytes, the payload as it stands in BUF. -/
structure KeyView where
  fLen : Half
  fCtrl : Byte
  ciDir : Byte
  ciPrm : Byte
  ciAddr : Byte
  ciVer : Byte
  ciFunc : Byte
  ciMask : BitVec 5
  addr0 : List Byte
  /-- Protocol B only -/
  header : Option HeaderView
  /-- Protocol C only: PARSEB writes no F_FUNC (R220) -/
  fFunc : Option Byte
  pStart : Half
  pEnd : Half
  deobf : Byte
  payload : List Byte
  deriving DecidableEq, Repr, Inhabited

/-- One piece of a key that is a concatenation, as Protocol A's is (R100). -/
inductive KeyPart where
  | fLen
  | fCtrl
  | ciDir
  | ciPrm
  | ciAddr
  | ciVer
  | ciFunc
  | ciMask
  | addr0 (index : Nat)
  | bAtype
  | bLaddr
  | bTrail
  | hkDecl
  | hkComp
  | hkValid
  | fFunc
  | pStart
  | pEnd
  | deobf
  /-- `pay(P_START + index)`, the payload byte after the DEOBF subtraction (R63) -/
  | payload (index : Nat)
  /-- a fixed number of a fixed width -/
  | const (width value : Nat)
  deriving DecidableEq, Repr, Inhabited

/-- KEY_B and KEY_C (R7) as plain data: `never` is the spec's default; `parts` concatenates pieces, the first on the
most significant side, and has no key where a piece does not exist; `table` lists the function's values, and a view in
no row has no key. The views of a machine are finitely many, so `table` reaches every function. -/
inductive KeyFn where
  | never
  | parts (ps : List KeyPart)
  | table (rows : List (KeyView × Nat))
  deriving DecidableEq, Repr, Inhabited

/-- The parameters of R7 as plain data. DROM_SIZE is the length of `drom`; DICT is the list of its pairs, the
first pair with a key counting; CTRL_A_ENC is its two values. -/
structure Config where
  bufCap : Nat
  txCap : Nat
  drom : List Word
  dict : List (Nat × Half)
  keyB : KeyFn
  keyC : KeyFn
  layoutA : Layout
  layoutB : Layout
  layoutC : Layout
  ctrlEnc0 : Byte
  ctrlEnc1 : Byte
  placeholder : Byte
  hasEncoder : Bool
  deriving DecidableEq, Repr, Inhabited

/-- The bits `LAYOUT[A][ADDR]` of a control byte (R263). -/
def Config.addrMaskA (c : Config) : Byte :=
  match c.layoutA.addr with
  | some r => r.mask
  | none => 0#8

/-- The constraint column of R7, with R149, R263 and R334: an ill-formed configuration is refused at
configuration time (U15). -/
def Config.wf (c : Config) : Bool :=
  decide (16 ≤ c.bufCap ∧ c.bufCap ≤ 65535) && decide (12 ≤ c.txCap ∧ c.txCap ≤ 65535)
    && decide (1 ≤ c.drom.length ∧ c.drom.length ≤ 65536)
    && (c.layoutA.ok && c.layoutB.ok && c.layoutC.ok)
    && (c.layoutA.addr.isSome && decide (c.layoutC.func = some ⟨0#3, 4#3⟩))
    && (decide (c.ctrlEnc0 &&& c.addrMaskA = 0#8) && decide (c.ctrlEnc1 &&& c.addrMaskA = 0#8))

/-- A configuration that passed the check: the only kind a machine can be built with (U15: "refuse (the model
rejects the configuration)"; R149: "at configuration time, not at run time"). -/
abbrev WfConfig := { c : Config // c.wf = true }

/-- The configuration-time check, as a function: an ill-formed configuration has no machine. -/
def Config.accept (c : Config) : Option WfConfig :=
  if h : c.wf = true then some ⟨c, h⟩ else none

/-! ### Free values -/

/-- The byte memories whose contents the spec can leave unspecified. -/
inductive MemId where
  | buf
  | tx
  | addr0
  | addr1
  deriving DecidableEq, Repr, Inhabited

/-- The byte at an index of a memory that nothing has written since its contents last became unspecified (U1,
U2); `gen` tells one such occasion from another. -/
opaque Config.anyByte (m : MemId) (gen index : Nat) : Byte

/-- The value of register number `reg`, `w` bits wide, when a rule leaves it unspecified (U3); `draw` tells one
occasion from another. -/
opaque Config.anyBits (w draw reg : Nat) : BitVec w

/-- The contents of REC when a rule leaves them unspecified (U3). -/
opaque Config.anyRecs (draw : Nat) : List Machine.RecEntry

/-- The entry a host reads from REC at an index at or past REC_CNT (U2). -/
opaque Config.anyEntry (draw index : Nat) : Machine.RecEntry

/-! ### The configuration a machine leaves reset with -/

/-- OPEN: `LAYOUT[A][ADDR]` (R7: "must be defined"), as two bit numbers in either order. -/
opaque Config.openAddrA : BitVec 3 × BitVec 3

/-- OPEN: every other entry of LAYOUT but `LAYOUT[C][FUNC]` (R7), by number. -/
opaque Config.openRange (entry : Nat) : Option (BitVec 3 × BitVec 3)

/-- OPEN: CTRL_A_ENC before its ADDR bits are cleared (R7, R263). -/
opaque Config.openCtrl (dir : BitVec 1) : Byte

/-- Two bit numbers as a range, the lower one first. -/
def BitRange.ofPair (p : BitVec 3 × BitVec 3) : BitRange :=
  if p.1.toNat ≤ p.2.toNat then ⟨p.1, p.2⟩ else ⟨p.2, p.1⟩

theorem BitRange.ofPair_ok (p : BitVec 3 × BitVec 3) : (BitRange.ofPair p).ok = true := by
  unfold BitRange.ofPair BitRange.ok
  split <;> simp <;> omega

/-- An unprogrammed FCC: the defaults of R7 where it has one; OPEN parameters free, but for the dictionary,
which is empty over an erased ROM of one END word (D4) (DESIGN CHOICE, log entry 2). -/
def Config.blankData : Config where
  bufCap := 512
  txCap := 512
  drom := [0x00000000#32]
  dict := []
  keyB := .never
  keyC := .never
  layoutA :=
    { dir := (Config.openRange 0).map BitRange.ofPair
      prm := (Config.openRange 1).map BitRange.ofPair
      addr := some (BitRange.ofPair Config.openAddrA)
      ver := (Config.openRange 3).map BitRange.ofPair
      func := (Config.openRange 4).map BitRange.ofPair }
  layoutB :=
    { dir := (Config.openRange 5).map BitRange.ofPair
      prm := (Config.openRange 6).map BitRange.ofPair
      addr := (Config.openRange 7).map BitRange.ofPair
      ver := (Config.openRange 8).map BitRange.ofPair
      func := (Config.openRange 9).map BitRange.ofPair }
  layoutC :=
    { dir := (Config.openRange 10).map BitRange.ofPair
      prm := (Config.openRange 11).map BitRange.ofPair
      addr := (Config.openRange 12).map BitRange.ofPair
      ver := (Config.openRange 13).map BitRange.ofPair
      func := some ⟨0#3, 4#3⟩ }
  ctrlEnc0 := Config.openCtrl 0 &&& ~~~(BitRange.ofPair Config.openAddrA).mask
  ctrlEnc1 := Config.openCtrl 1 &&& ~~~(BitRange.ofPair Config.openAddrA).mask
  placeholder := 0x2E#8
  hasEncoder := true

theorem Config.openRange_ok (n : Nat) :
    ((Config.openRange n).map BitRange.ofPair).all BitRange.ok = true := by
  cases Config.openRange n <;> simp [BitRange.ofPair_ok]

theorem Config.and_not_and_self (x m : Byte) : (x &&& ~~~m) &&& m = 0#8 := by
  rw [BitVec.and_assoc, BitVec.and_comm (~~~m) m, BitVec.and_not_self]
  simp

theorem Config.blankData_wf : Config.blankData.wf = true := by
  have h := Config.openRange_ok
  have hf : BitRange.ok ⟨0#3, 4#3⟩ = true := by decide
  simp [Config.wf, Config.blankData, Layout.ok, Config.addrMaskA, h, BitRange.ofPair_ok,
    Config.and_not_and_self, hf]

/-- The unprogrammed FCC as an accepted configuration. -/
def Config.blank : WfConfig := ⟨Config.blankData, Config.blankData_wf⟩

end Sys2Proof
end

