-- ==== Sys2Proof/Machine/State.lean ====
section
/-! DEFINITION. The state of one FCC instance (R20 to R38) as plain data, its value after reset (R43, R330),
and the reasons a step can stop. Register numbers, widths and meanings are those of 10_state.md. -/

namespace Sys2Proof.Machine

/-- A byte memory: the cells whose contents are determined, addresses strictly rising. An address that is not
listed holds no determined value; what a read of it gives is a free value (`Config.anyByte`). -/
abbrev Memory := List Host.Cell

/-- STATUS, register 0x01 (R26): seven one-bit flags; bit 7 is reserved and has no storage. -/
structure Status where
  /-- bit 0 -/
  busy : Bool
  /-- bit 1 -/
  done : Bool
  /-- bit 2 -/
  err : Bool
  /-- bit 3 -/
  ckValid : Bool
  /-- bit 4 -/
  hkValid : Bool
  /-- bit 5 -/
  dictMiss : Bool
  /-- bit 6 -/
  recValid : Bool
  deriving DecidableEq, Repr, Inhabited

/-- The error registers (R27). -/
structure ErrRegs where
  /-- ERRCODE, 0x02 -/
  code : Byte
  /-- ERRSUB, 0x03 -/
  sub : Byte
  /-- ERRFIELD, 0x04 -/
  field : Half
  /-- ERROFF, 0x05 -/
  off : Half
  deriving DecidableEq, Repr, Inhabited

/-- The operand registers of R28 but SEQ, which alone the FCC writes. -/
structure OpRegs where
  /-- 0x10 -/
  bufLen : Half
  /-- 0x11 -/
  opStart : Half
  /-- 0x12 -/
  opEnd : Half
  /-- 0x13 -/
  opByte : Byte
  /-- 0x14 -/
  opSpec : Byte
  /-- 0x15 -/
  opPtr : Half
  /-- 0x16 -/
  opProto : BitVec 2
  /-- 0x17 -/
  opDir : BitVec 1
  /-- 0x18 -/
  opFunc : Byte
  /-- 0x19 -/
  opIdent : Word
  deriving DecidableEq, Repr, Inhabited

/-- The result registers (R30). -/
structure ResRegs where
  /-- R_SUM, 0x20 -/
  rSum : Byte
  /-- R_CRC, 0x21 -/
  rCrc : Half
  /-- R_BITS, 0x22 -/
  rBits : Byte
  /-- R_BITW, 0x23 -/
  rBitw : BitVec 4
  /-- CK_DECL, 0x24 -/
  ckDecl : Half
  /-- CK_COMP, 0x25 -/
  ckComp : Half
  /-- HK_DECL, 0x26 -/
  hkDecl : Half
  /-- HK_COMP, 0x27 -/
  hkComp : Half
  /-- F_LEN, 0x28 -/
  fLen : Half
  /-- F_CTRL, 0x29 -/
  fCtrl : Byte
  /-- CI_DIR, 0x2A -/
  ciDir : Byte
  /-- CI_PRM, 0x2B -/
  ciPrm : Byte
  /-- CI_ADDR, 0x2C -/
  ciAddr : Byte
  /-- CI_VER, 0x2D -/
  ciVer : Byte
  /-- CI_FUNC, 0x2E -/
  ciFunc : Byte
  /-- CI_MASK, 0x2F -/
  ciMask : BitVec 5
  /-- ADDR0_LEN, 0x30 -/
  addr0Len : BitVec 5
  /-- ADDR1_LEN, 0x31 -/
  addr1Len : BitVec 5
  /-- B_ATYPE, 0x32 -/
  bAtype : BitVec 2
  /-- B_LADDR, 0x33 -/
  bLaddr : BitVec 2
  /-- B_TRAIL, 0x34 -/
  bTrail : Byte
  /-- F_FUNC, 0x35 -/
  fFunc : Byte
  /-- F_SEQ, 0x36 -/
  fSeq : Byte
  /-- F_IDENT, 0x37 -/
  fIdent : Word
  /-- P_START, 0x38 -/
  pStart : Half
  /-- P_END, 0x39 -/
  pEnd : Half
  /-- DEOBF, 0x3A -/
  deobf : Byte
  /-- REM, 0x3B -/
  rem : Half
  /-- REC_CNT, 0x3C -/
  recCnt : Half
  /-- TX_LEN, 0x3D -/
  txLen : Half
  deriving DecidableEq, Repr, Inhabited

/-- The envelope state machine's states (R33). -/
inductive Fsm where
  | idle
  | start
  | length
  | control
  | address
  | hcs
  | payload
  | checksum
  | endMark
  | done
  | error
  deriving DecidableEq, Repr, Inhabited

/-- The interpreter state machine's states (R36). -/
inductive Ism where
  | idle
  | fetch
  | exec
  | done
  | error
  deriving DecidableEq, Repr, Inhabited

/-- The working values of R146's `composite`: the byte, the DROM index of the next range word (`p + 1 + j`) and
the sub-values so far. They live only inside one BS descriptor or one BITC. -/
structure Composite where
  byte : Byte
  pos : Nat
  subs : List SubValue
  deriving DecidableEq, Repr, Inhabited

/-- The host's accesses (R280): register write, register read, memory accesses. -/
inductive HostAccess where
  | regWrite (num : Byte) (value : Word)
  | regRead (num : Byte)
  | bufWrite (index : Half) (value : Byte)
  | bufRead (index : Half)
  | txRead (index : Half)
  | recRead (index : Half)
  | addr0Read (index : BitVec 4)
  | addr1Read (index : BitVec 4)
  deriving DecidableEq, Repr, Inhabited

/-- What a host read gives. -/
inductive Reply where
  | reg (value : Word)
  | byte (value : Byte)
  | entry (e : RecEntry)
  deriving DecidableEq, Repr, Inhabited

/-- The state of one FCC instance. The configuration stands in it unchanged (R20, R40); the last block of
fields is the model's own and no register of the FCC. -/
structure State where
  /-- the configuration (R7, R39 to R42): constant -/
  cfg : WfConfig
  /-- BUF (R21) -/
  buf : Memory
  /-- TXBUF (R22) -/
  tx : Memory
  /-- REC (R23) -/
  recs : List RecEntry
  /-- ADDR0 (R24) -/
  addr0 : Memory
  /-- ADDR1 (R24) -/
  addr1 : Memory
  /-- STATUS (R26) -/
  status : Status
  /-- ERRCODE, ERRSUB, ERRFIELD, ERROFF (R27) -/
  err : ErrRegs
  /-- the operand registers (R28) -/
  op : OpRegs
  /-- SEQ, 0x1A (R29) -/
  seq : Byte
  /-- the result registers (R30) -/
  res : ResRegs
  /-- FSM, 0x06 (R33) -/
  fsm : Fsm
  /-- ISM, 0x07 (R36) -/
  ism : Ism
  /-- CUR, 0x3E (R34) -/
  cur : Half
  /-- DP, 0x3F (R35) -/
  dp : Half
  /-- LENVLD (R37) -/
  lenVld : Bool
  /-- LENVAL (R37), an unsigned integer -/
  lenVal : Nat
  /-- model: DP has advanced to 65536, one past its 16 bits ("It does not wrap", R35) -/
  dpPast : Bool
  /-- model: the composite being decoded (R146) -/
  comp : Option Composite
  /-- model: how often something became unspecified; numbers the free values -/
  draws : Nat
  /-- model: the number under which TXBUF's undetermined bytes were last left free -/
  txGen : Nat
  /-- model: the same for ADDR0 -/
  addr0Gen : Nat
  /-- model: the same for ADDR1 -/
  addr1Gen : Nat
  /-- model: the host accesses still to come, in order -/
  inbox : List HostAccess
  /-- model: what the last host read gave -/
  reply : Option Reply
  deriving DecidableEq, Repr

/-- Why the machine stops. No instruction raises one: each is a host access the spec rules out. -/
inductive Fault where
  /-- A host access other than a STATUS read while BUSY = 1: "the model has no such transition" (R283, R338, U5:
  stuck). Raised by the host port. Safe: nothing follows from an access the host must not make. -/
  | accessWhileBusy
  /-- A BUF or TXBUF index at or past the capacity (R21, R22): no such byte exists. Raised by the host port.
  Safe: the machine stops. -/
  | noSuchIndex
  /-- A TXBUF read when HAS_ENCODER is false: "Absent when HAS_ENCODER is false" (R22). Raised by the host port.
  Safe: the machine stops. -/
  | absentMemory
  deriving DecidableEq, Repr

/-- Why a step has no meaning. -/
inductive Refusal where
  /-- An instruction without a meaning in this model; no arm of exec answers so. Safe: the machine stops. -/
  | notModelled (mnemonic : String)
  deriving DecidableEq, Repr

/-- All flags clear (R43). -/
def Status.zero : Status := ⟨false, false, false, false, false, false, false⟩

/-- All error registers 0 (R27, R43). -/
def ErrRegs.zero : ErrRegs := ⟨0, 0, 0, 0⟩

/-- All operand registers 0 (R28, R43). -/
def OpRegs.zero : OpRegs := ⟨0, 0, 0, 0, 0, 0, 0, 0, 0, 0⟩

/-- All result registers 0 (R30, R43). -/
def ResRegs.zero : ResRegs :=
  ⟨0, 0, 0, 0, 0, 0, 0, 0, 0, 0, 0, 0, 0, 0, 0, 0, 0, 0, 0, 0, 0, 0, 0, 0, 0, 0, 0, 0, 0, 0⟩

/-- The machine right after reset, for a given configuration (R43, R330). BUF, TXBUF, ADDR0 and ADDR1 hold no
determined byte; LENVAL, which R43 leaves unspecified, is 0 (DESIGN CHOICE, log entry 3). -/
def State.resetWith (c : WfConfig) : State where
  cfg := c
  buf := []
  tx := []
  recs := []
  addr0 := []
  addr1 := []
  status := Status.zero
  err := ErrRegs.zero
  op := OpRegs.zero
  seq := 0
  res := ResRegs.zero
  fsm := .idle
  ism := .idle
  cur := 0
  dp := 0
  lenVld := false
  lenVal := 0
  dpPast := false
  comp := none
  draws := 1
  txGen := 0
  addr0Gen := 0
  addr1Gen := 0
  inbox := []
  reply := none

/-- The machine right after reset, unprogrammed. -/
def State.reset : State := State.resetWith Config.blank

end Sys2Proof.Machine
end

