-- ==== Sys2Proof/Machine/Flags.lean ====
section
/-! DEFINITION. Every computation on STATUS (R26): when each flag is set and cleared (R201, R281, R282, R296,
R297), and the byte a host read gives. The FCC has no arithmetic flags (R111, R127). -/

namespace Sys2Proof.Machine

/-- Command start: BUSY set, DONE and ERR cleared (R281). -/
def Status.issued (f : Status) : Status := { f with busy := true, done := false, err := false }

/-- Command end: BUSY cleared, DONE set (R281). -/
def Status.ended (f : Status) : Status := { f with busy := false, done := true }

/-- `raise`: ERR set and the command ended (R296). -/
def Status.raised (f : Status) : Status := { f with busy := false, done := true, err := true }

/-- The flags a PARSE command clears first (R201). -/
def Status.parseCleared (f : Status) : Status :=
  { f with ckValid := false, hkValid := false, dictMiss := false, recValid := false }

/-- REC_VALID cleared: INTERP and BITC do so first (R282), and a fatal error of the commands that own the flag
leaves it so (R297). -/
def Status.recCleared (f : Status) : Status := { f with recValid := false }

/-- REC_VALID set at the end of an interpretation (R162) and of BITC (R144). -/
def Status.recSet (f : Status) : Status := { f with recValid := true }

/-- CK_VALID from the CHECKSUM stage's comparison (R215, R229, R243). -/
def Status.withCk (f : Status) (declared computed : Half) : Status :=
  { f with ckValid := decide (declared = computed) }

/-- HK_VALID from the HCS stage's comparison (R227). -/
def Status.withHk (f : Status) (declared computed : Half) : Status :=
  { f with hkValid := decide (declared = computed) }

/-- DICT_MISS set on a lookup miss (R238). -/
def Status.missed (f : Status) : Status := { f with dictMiss := true }

/-- STATUS as the host reads it: bit 7 reads 0 (R26). -/
def Status.toByte (f : Status) : Byte :=
  0#1 ++ BitVec.ofBool f.recValid ++ BitVec.ofBool f.dictMiss ++ BitVec.ofBool f.hkValid
    ++ BitVec.ofBool f.ckValid ++ BitVec.ofBool f.err ++ BitVec.ofBool f.done ++ BitVec.ofBool f.busy

end Sys2Proof.Machine
end

