-- ==== Sys2Proof/Machine/Ops.lean ====
section
/-! DEFINITION. The named operations over memories and registers (R60 to R70), the free values of what the spec
leaves unspecified, raising an error as ONE operation (R296), and command issue with its end (R281). -/

namespace Sys2Proof.Machine

/-! ### Byte memories -/

/-- The determined byte at an address, if there is one. -/
def Memory.get? : Memory → Nat → Option Byte
  | [], _ => none
  | (k, v) :: rest, a => if a = k then some v else Memory.get? rest a

/-- Write one byte, keeping the addresses strictly rising. -/
def Memory.set : Memory → Nat → Byte → Memory
  | [], a, b => [(a, b)]
  | (k, v) :: rest, a, b =>
    if a < k then (a, b) :: (k, v) :: rest
    else if a = k then (k, b) :: rest
    else (k, v) :: Memory.set rest a b

/-- The cells of consecutive bytes from an address on. -/
def Memory.ofBytes (a : Nat) : List Byte → Memory
  | [] => []
  | b :: rest => (a, b) :: Memory.ofBytes (a + 1) rest

/-- The canonical form: addresses strictly rising. (An unlisted address reads as no determined byte, so no entry
can equal what an unlisted address reads as.) -/
def Memory.wf : Memory → Bool
  | [] => true
  | [_] => true
  | (a, _) :: (b, v) :: rest => decide (a < b) && Memory.wf ((b, v) :: rest)

/-- Every address is below a capacity. -/
def Memory.below (m : Memory) (cap : Nat) : Bool := m.all fun cell => decide (cell.1 < cap)

/-- `BUF[i]` (R11, R62). A byte the host has not written since reset is a free value (U1). -/
def State.bufByte (s : State) (i : Nat) : Byte := (Memory.get? s.buf i).getD (Config.anyByte .buf 0 i)

/-- `TXBUF[i]` as the host reads it (R22). -/
def State.txByte (s : State) (i : Nat) : Byte := (Memory.get? s.tx i).getD (Config.anyByte .tx s.txGen i)

/-- `ADDR0[i]` as the host reads it (R24). -/
def State.addr0Byte (s : State) (i : Nat) : Byte :=
  (Memory.get? s.addr0 i).getD (Config.anyByte .addr0 s.addr0Gen i)

/-- `ADDR1[i]` as the host reads it (R24). -/
def State.addr1Byte (s : State) (i : Nat) : Byte :=
  (Memory.get? s.addr1 i).getD (Config.anyByte .addr1 s.addr1Gen i)

/-- `MemRead(BUF, a, n)` (R11, R62): n bytes in increasing index order. -/
def State.bufRange (s : State) (a : Nat) : Nat → List Byte
  | 0 => []
  | n + 1 => s.bufByte a :: State.bufRange s (a + 1) n

/-- `pay(i) = u8(BUF[i] − DEOBF)` (R63). -/
def State.pay (s : State) (i : Nat) : Byte := s.bufByte i - s.res.deobf

/-- `[ pay(a + i) for i in 0 .. n-1 ]` (R63, R168, R172, R176). -/
def State.payRange (s : State) (a : Nat) : Nat → List Byte
  | 0 => []
  | n + 1 => s.pay a :: State.payRange s (a + 1) n

/-- `N`, the frame's byte count: BUF_LEN (R205, R220, R232). -/
def State.frameLen (s : State) : Nat := s.op.bufLen.toNat

/-! ### Byte order (R10, R66, R67) -/

/-- `le(s) = Σ s[i]·256^i` (R10). -/
def le : List Byte → Nat
  | [] => 0
  | b :: rest => b.toNat + 256 * le rest

/-- The named transform `reverseBytes` (R10, R67). -/
def reverseBytes (bs : List Byte) : List Byte := bs.reverse

/-! ### Configuration reads -/

/-- DROM_SIZE (R7). -/
def State.dromSize (s : State) : Nat := s.cfg.val.drom.length

/-- A DROM read (R40, R145); none at or past DROM_SIZE. -/
def State.dromWord (s : State) (i : Nat) : Option Word := s.cfg.val.drom[i]?

/-- The first pair of the list with this key. -/
def dictFind : List (Nat × Half) → Nat → Option Half
  | [], _ => none
  | (k, base) :: rest, key => if key = k then some base else dictFind rest key

/-- `DICT(k)` (R41). -/
def State.dictLookup (s : State) (k : Nat) : Option Half := dictFind s.cfg.val.dict k

/-! ### Free values -/

/-- The free value of a register (U3), named by the register's number. -/
def State.anyReg (s : State) (w reg : Nat) : BitVec w := Config.anyBits w s.draws reg

/-- The next free values are new ones. -/
def State.bump (s : State) : State := { s with draws := s.draws + 1 }

/-- A DROM index as the 16-bit ERROFF holds it (R27, R293). An index of 65536 or more has no 16-bit value and the
spec states none: a free value (DESIGN CHOICE, log entry 6). -/
def State.off16 (s : State) (off : Nat) : Half :=
  if off < 65536 then BitVec.ofNat 16 off else s.anyReg 16 0x05

/-! ### The descriptor pointer (R35) -/

/-- The DROM index of the next descriptor: DP, or 65536 when DP has advanced past its 16 bits without wrapping. -/
def State.dpIndex (s : State) : Nat := if s.dpPast then 65536 else s.dp.toNat

/-- `DP <- n`. Only 65536 (one past the largest DROM) fails to fit; DP then reads as a free value (DESIGN CHOICE,
log entry 6). -/
def State.setDp (n : Nat) (s : State) : State :=
  if n < 65536 then { s with dp := BitVec.ofNat 16 n, dpPast := false }
  else { s with dp := s.anyReg 16 0x3F, dpPast := true, draws := s.draws + 1 }

/-! ### Errors (R290 to R296) -/

/-- The fatal errors an FCC command raises (R290). -/
inductive ErrName where
  | envelope
  | insufficientData
  | missingLengthField
  | unknownFieldType
  | dictionary
  | badCommand
  | range
  | encodeOverflow
  deriving DecidableEq, Repr

/-- ERRCODE (R290). -/
def ErrName.code : ErrName → Byte
  | .envelope => 2
  | .insufficientData => 3
  | .missingLengthField => 4
  | .unknownFieldType => 5
  | .dictionary => 6
  | .badCommand => 7
  | .range => 8
  | .encodeOverflow => 9

/-- A PARSE command is running: its FSM is neither IDLE, DONE nor ERROR (R32). -/
def State.parsing (s : State) : Bool :=
  match s.fsm with
  | .idle | .done | .error => false
  | .start | .length | .control | .address | .hcs | .payload | .checksum | .endMark => true

/-- The interpreter is running: ISM is I_FETCH or I_EXEC (R36, R180). -/
def State.walking (s : State) : Bool :=
  match s.ism with
  | .fetch | .exec => true
  | .idle | .done | .error => false

/-- `raise X(sub, field, off)` (R296), the one operation that enters an error. It also ends a composite being
decoded. -/
def raise (x : ErrName) (sub : Byte) (field : Half) (off : Nat) (s : State) : State :=
  { s with
    err := ⟨x.code, sub, field, s.off16 off⟩
    status := s.status.raised
    fsm := if s.parsing then .error else s.fsm
    ism := if s.walking then .error else s.ism
    comp := none
    draws := if off < 65536 then s.draws else s.draws + 1 }

/-! ### Pseudocode with an early end (R12, R13) -/

/-- Where a command's pseudocode stands: it goes on, or a `raise` has ended it. -/
inductive Stage where
  | cont (s : State)
  | stop (s : State)
  deriving DecidableEq, Repr

/-- Sequential composition: nothing after a `raise` happens (R295). -/
def Stage.bind (x : Stage) (f : State → Stage) : Stage :=
  match x with
  | .cont s => f s
  | .stop s => .stop s

/-- The state reached, either way. -/
def Stage.state : Stage → State
  | .cont s => s
  | .stop s => s

/-- A `raise` as a stage. -/
def raiseStage (x : ErrName) (sub : Byte) (field : Half) (off : Nat) (s : State) : Stage :=
  .stop (raise x sub field off s)

/-! ### Command issue (R281) -/

/-- What `issue` does first: BUSY, DONE, ERR and the error registers (R281). -/
def issueBegin (s : State) : State := { s with status := s.status.issued, err := ErrRegs.zero }

/-- What `issue` does last (R281). -/
def issueEnd (s : State) : State := { s with status := s.status.ended }

/-- The sub-3 check of a command that reads BUF (R281, R301). -/
def bufCheck (s : State) : Stage :=
  if s.cfg.val.bufCap < s.frameLen then raiseStage .range 3 0 s.frameLen s else .cont s

/-- The end of a command: after an error, `spoil` leaves unspecified what R297 says is unspecified. -/
def settle (spoil : State → State) : Stage → State
  | .cont s => issueEnd s
  | .stop s => issueEnd (spoil s)

/-- `issue` around a command's pseudocode, as one atomic transition (R281). -/
def issue (spoil : State → State) (body : State → Stage) (s : State) : State :=
  settle spoil (body (issueBegin s))

/-- `issue` of a reserved opcode: BadCommand, and nothing else changes (R83, R302). -/
def issueReserved (opc : Byte) (s : State) : State :=
  issue id (fun t => raiseStage .badCommand 0 (opc.setWidth 16) 0 t) s

/-! ### What a fatal error leaves unspecified (R297, U3), in pieces -/

/-- The ControlInfo registers (R149, R203). -/
def spoilControl (s : State) : State :=
  { s with
    res := { s.res with
      fCtrl := s.anyReg 8 0x29, ciDir := s.anyReg 8 0x2A, ciPrm := s.anyReg 8 0x2B
      ciAddr := s.anyReg 8 0x2C, ciVer := s.anyReg 8 0x2D, ciFunc := s.anyReg 8 0x2E
      ciMask := s.anyReg 5 0x2F } }

/-- REC, REC_CNT and REM; REC_VALID is 0 (R297). -/
def spoilRecord (s : State) : State :=
  { s with
    recs := Config.anyRecs s.draws
    res := { s.res with rem := s.anyReg 16 0x3B, recCnt := s.anyReg 16 0x3C }
    status := s.status.recCleared }

/-- P_START, P_END and DEOBF. -/
def spoilPayload (s : State) : State :=
  { s with
    res := { s.res with
      pStart := s.anyReg 16 0x38, pEnd := s.anyReg 16 0x39, deobf := s.anyReg 8 0x3A } }

/-- F_LEN, CK_DECL and CK_COMP. -/
def spoilFrame (s : State) : State :=
  { s with
    res := { s.res with
      fLen := s.anyReg 16 0x28, ckDecl := s.anyReg 16 0x24, ckComp := s.anyReg 16 0x25 } }

/-- ADDR0, ADDR1 and their lengths. -/
def spoilAddress (s : State) : State :=
  { s with
    addr0 := []
    addr0Gen := s.draws
    addr1 := []
    addr1Gen := s.draws
    res := { s.res with addr0Len := s.anyReg 5 0x30, addr1Len := s.anyReg 5 0x31 } }

end Sys2Proof.Machine
end

