-- ==== Sys2Proof/Machine/Operands.lean ====
section
/-! DEFINITION. The operand forms: half-open ranges of BUF (R28, R110, R161), the packed BitRangeSpec of OP_SPEC
(R91), the protocol number of OP_PROTO (R28, R148), and the register file as the host reaches it (R25 to R36,
R285). -/

namespace Sys2Proof.Machine

/-- The range [OP_START..OP_END) is empty (R10, R110). -/
def OpRegs.rangeEmpty (o : OpRegs) : Bool := decide (o.opEnd.toNat ≤ o.opStart.toNat)

/-- OP_START > OP_END or OP_END > BUF_LEN: the ranges INTERP and ENCA refuse (R161, R261). -/
def OpRegs.rangeBad (o : OpRegs) : Bool :=
  decide (o.opEnd.toNat < o.opStart.toNat) || decide (o.bufLen.toNat < o.opEnd.toNat)

/-- OP_SPEC[2:0], start-bit (R91). -/
def OpRegs.specStart (o : OpRegs) : BitVec 3 := o.opSpec.extractLsb' 0 3

/-- OP_SPEC[5:3], end-bit (R91). -/
def OpRegs.specStop (o : OpRegs) : BitVec 3 := o.opSpec.extractLsb' 3 3

/-- OP_SPEC[7:6], which must be 0 (R91). -/
def OpRegs.specRsv (o : OpRegs) : BitVec 2 := o.opSpec.extractLsb' 6 2

/-- The three protocols (R1). -/
inductive Proto where
  | a
  | b
  | c
  deriving DecidableEq, Repr

/-- `proto(OP_PROTO)`; 3 is reserved (R28, R148). -/
def OpRegs.proto (o : OpRegs) : Option Proto :=
  if o.opProto = 0#2 then some .a
  else if o.opProto = 1#2 then some .b
  else if o.opProto = 2#2 then some .c
  else none

/-- `LAYOUT[p]` (R7). -/
def State.layout (s : State) : Proto → Layout
  | .a => s.cfg.val.layoutA
  | .b => s.cfg.val.layoutB
  | .c => s.cfg.val.layoutC

/-- FSM's encoding (R33). -/
def Fsm.code : Fsm → BitVec 4
  | .idle => 0
  | .start => 1
  | .length => 2
  | .control => 3
  | .address => 4
  | .hcs => 5
  | .payload => 6
  | .checksum => 7
  | .endMark => 8
  | .done => 9
  | .error => 10

/-- ISM's encoding (R36). -/
def Ism.code : Ism → BitVec 3
  | .idle => 0
  | .fetch => 1
  | .exec => 2
  | .done => 3
  | .error => 4

/-- A host read of an operand register or SEQ (R28, R29). SEQ is absent without the encoder and then reads as an
unlisted number does (R29, R285; DEDUCED, log entry 9). -/
def readOperand (num : Nat) (s : State) : Word :=
  match num with
  | 0x10 => s.op.bufLen.setWidth 32
  | 0x11 => s.op.opStart.setWidth 32
  | 0x12 => s.op.opEnd.setWidth 32
  | 0x13 => s.op.opByte.setWidth 32
  | 0x14 => s.op.opSpec.setWidth 32
  | 0x15 => s.op.opPtr.setWidth 32
  | 0x16 => s.op.opProto.setWidth 32
  | 0x17 => s.op.opDir.setWidth 32
  | 0x18 => s.op.opFunc.setWidth 32
  | 0x19 => s.op.opIdent
  | 0x1A => if s.cfg.val.hasEncoder then s.seq.setWidth 32 else 0
  | _ => 0

/-- A host read of a result register (R30). -/
def readResult (num : Nat) (s : State) : Word :=
  match num with
  | 0x20 => s.res.rSum.setWidth 32
  | 0x21 => s.res.rCrc.setWidth 32
  | 0x22 => s.res.rBits.setWidth 32
  | 0x23 => s.res.rBitw.setWidth 32
  | 0x24 => s.res.ckDecl.setWidth 32
  | 0x25 => s.res.ckComp.setWidth 32
  | 0x26 => s.res.hkDecl.setWidth 32
  | 0x27 => s.res.hkComp.setWidth 32
  | 0x28 => s.res.fLen.setWidth 32
  | 0x29 => s.res.fCtrl.setWidth 32
  | 0x2A => s.res.ciDir.setWidth 32
  | 0x2B => s.res.ciPrm.setWidth 32
  | 0x2C => s.res.ciAddr.setWidth 32
  | 0x2D => s.res.ciVer.setWidth 32
  | 0x2E => s.res.ciFunc.setWidth 32
  | 0x2F => s.res.ciMask.setWidth 32
  | 0x30 => s.res.addr0Len.setWidth 32
  | 0x31 => s.res.addr1Len.setWidth 32
  | 0x32 => s.res.bAtype.setWidth 32
  | 0x33 => s.res.bLaddr.setWidth 32
  | 0x34 => s.res.bTrail.setWidth 32
  | 0x35 => s.res.fFunc.setWidth 32
  | 0x36 => s.res.fSeq.setWidth 32
  | 0x37 => s.res.fIdent
  | 0x38 => s.res.pStart.setWidth 32
  | 0x39 => s.res.pEnd.setWidth 32
  | 0x3A => s.res.deobf.setWidth 32
  | 0x3B => s.res.rem.setWidth 32
  | 0x3C => s.res.recCnt.setWidth 32
  | 0x3D => s.res.txLen.setWidth 32
  | _ => 0

/-- A host read of a control or sequencer register (R25 to R27, R33 to R36); CMD reads 0. -/
def readControl (num : Nat) (s : State) : Word :=
  match num with
  | 0x01 => s.status.toByte.setWidth 32
  | 0x02 => s.err.code.setWidth 32
  | 0x03 => s.err.sub.setWidth 32
  | 0x04 => s.err.field.setWidth 32
  | 0x05 => s.err.off.setWidth 32
  | 0x06 => s.fsm.code.setWidth 32
  | 0x07 => s.ism.code.setWidth 32
  | 0x3E => s.cur.setWidth 32
  | 0x3F => s.dp.setWidth 32
  | _ => 0

/-- A host register read: a number not listed reads 0 (R285). -/
def readReg (num : Byte) (s : State) : Word :=
  if num.toNat < 0x10 then readControl num.toNat s
  else if num.toNat < 0x20 then readOperand num.toNat s
  else if num.toNat < 0x3E then readResult num.toNat s
  else readControl num.toNat s

/-- A host write to a register other than CMD: wider values keep the low bits; a write to an `R` register or to a
number not listed is ignored (R285). -/
def writeReg (num : Byte) (v : Word) (s : State) : State :=
  match num.toNat with
  | 0x10 => { s with op := { s.op with bufLen := v.setWidth 16 } }
  | 0x11 => { s with op := { s.op with opStart := v.setWidth 16 } }
  | 0x12 => { s with op := { s.op with opEnd := v.setWidth 16 } }
  | 0x13 => { s with op := { s.op with opByte := v.setWidth 8 } }
  | 0x14 => { s with op := { s.op with opSpec := v.setWidth 8 } }
  | 0x15 => { s with op := { s.op with opPtr := v.setWidth 16 } }
  | 0x16 => { s with op := { s.op with opProto := v.setWidth 2 } }
  | 0x17 => { s with op := { s.op with opDir := v.setWidth 1 } }
  | 0x18 => { s with op := { s.op with opFunc := v.setWidth 8 } }
  | 0x19 => { s with op := { s.op with opIdent := v } }
  | 0x1A => if s.cfg.val.hasEncoder then { s with seq := v.setWidth 8 } else s
  | _ => s

end Sys2Proof.Machine
end

