-- ==== Sys2Proof/Machine/Checksum.lean ====
section
/-! DEFINITION. Unit U2, the 8-bit arithmetic checksum engine (R110 to R114). -/

namespace Sys2Proof.Machine

/-- The loop of `checksum` over a byte sequence: `s <- u8(s + M[i])` (R111). -/
def sumFrom (acc : Byte) : List Byte → Byte
  | [] => acc
  | b :: rest => sumFrom (acc + b) rest

/-- The sum of a byte sequence modulo 256; 0 on the empty one (R111). -/
def sum8 (bs : List Byte) : Byte := sumFrom 0#8 bs

/-- `checksum(BUF, start, end)` (R111, R114). -/
def State.checksum (s : State) (start stop : Nat) : Byte := sum8 (s.bufRange start (stop - start))

/-- R110's pseudocode, with the issue check of R281 that an empty range escapes. -/
def chksumBody (s : State) : Stage :=
  if s.op.rangeEmpty then .cont { s with res := { s.res with rSum := 0#8 } }
  else
    (bufCheck s).bind fun s =>
      if s.op.bufLen.toNat < s.op.opEnd.toNat then raiseStage .range 1 0 s.op.opEnd.toNat s
      else .cont { s with res := { s.res with rSum := s.checksum s.op.opStart.toNat s.op.opEnd.toNat } }

/-- What a failed CHKSUM leaves unspecified: R_SUM (R110, R297). -/
def spoilChksum (s : State) : State :=
  { s with res := { s.res with rSum := s.anyReg 8 0x20 } }.bump

/-- CHKSUM (R110). -/
def execChksum (s : State) : Host.Outcome State Fault Refusal := .next (issue spoilChksum chksumBody s)

end Sys2Proof.Machine
end

