-- ==== Sys2Proof/Machine/Encoder.lean ====
section
/-! DEFINITION. Unit U6, the Protocol-A frame encoder and its sequence counter (R260 to R266): ENCA. -/

namespace Sys2Proof.Machine

/-- CTRL_A_ENC (R7, R263). -/
def State.ctrlEnc (s : State) (dir : BitVec 1) : Byte :=
  if dir = 0#1 then s.cfg.val.ctrlEnc0 else s.cfg.val.ctrlEnc1

/-- P, the payload byte count (R261). -/
def State.encPayloadLen (s : State) : Nat := s.op.opEnd.toNat - s.op.opStart.toNat

/-- N, the final frame size (R261). -/
def State.encFrameLen (s : State) : Nat := 12 + s.encPayloadLen

/-- The bytes the checksum covers: control to the last payload byte (R114, R262). The identifier stands reversed,
its last displayed byte first (R67). -/
def State.encBody (s : State) : List Byte :=
  [s.ctrlEnc s.op.opDir, s.op.opFunc, s.seq, s.op.opIdent.extractLsb' 0 8, s.op.opIdent.extractLsb' 8 8,
    s.op.opIdent.extractLsb' 16 8, s.op.opIdent.extractLsb' 24 8]
    ++ s.bufRange s.op.opStart.toNat s.encPayloadLen

/-- `assemble(P, N)`: the frame's bytes with the length backpatched (R262). -/
def State.encFrame (s : State) : List Byte :=
  [0x68#8, BitVec.ofNat 8 s.encFrameLen, BitVec.ofNat 8 (s.encFrameLen / 256)] ++ s.encBody
    ++ [sum8 s.encBody, 0x16#8]

/-- The frame into TXBUF: the bytes at and past N are unspecified (R262). -/
def storeFrame (s : State) : State :=
  { s with
    tx := Memory.ofBytes 0 s.encFrame
    txGen := s.draws
    draws := s.draws + 1
    res := { s.res with txLen := BitVec.ofNat 16 s.encFrameLen } }

/-- R261's pseudocode, with the issue check of R281. -/
def encaBody (s : State) : Stage :=
  (bufCheck s).bind fun s =>
    if s.op.rangeBad then raiseStage .range 1 0 s.op.opEnd.toNat s
    else if s.cfg.val.txCap < s.encFrameLen then
      raiseStage .encodeOverflow 0 0 (s.encFrameLen % 65536) s
    else .cont { storeFrame s with seq := s.seq + 1#8 }

/-- What a failed ENCA leaves unspecified: TXBUF and TX_LEN; SEQ is unchanged (R261, R297). -/
def spoilEnca (s : State) : State :=
  { s with tx := [], txGen := s.draws, res := { s.res with txLen := s.anyReg 16 0x3D } }.bump

/-- ENCA (R261); its opcode is reserved when HAS_ENCODER is false (R83). -/
def execEnca (s : State) : Host.Outcome State Fault Refusal :=
  .next (if s.cfg.val.hasEncoder then issue spoilEnca encaBody s else issueReserved 0x0B#8 s)

end Sys2Proof.Machine
end

