-- ==== Sys2Proof/Machine/Crc.lean ====
section
/-! DEFINITION. Unit U1, the CRC-16 polynomial generator and the table-driven CRC engine (R120 to R130). -/

namespace Sys2Proof.Machine

/-- POLY (R6). -/
def crcPoly : Half := 0x8408#16

/-- SEED (R6). -/
def crcSeed : Half := 0xFFFF#16

/-- XOROUT (R6). -/
def crcXorOut : Half := 0xFFFF#16

/-- One iteration of the generator: bit 0 is tested before the shift (R120). -/
def crcShift (c : Half) : Half :=
  if c.getLsbD 0 then (c >>> 1) ^^^ crcPoly else c >>> 1

/-- `n` iterations of the generator (R120, R124). -/
def crcShifts : Nat → Half → Half
  | 0, c => c
  | n + 1, c => crcShifts n (crcShift c)

/-- `table_entry(b)` (R120). -/
def tableEntry (b : Byte) : Half := crcShifts 8 (b.setWidth 16)

/-- `CRCROM[b]`: the generator's output, valid from reset (R39, R121, R122). -/
def crcRom (b : Byte) : Half := tableEntry b

/-- The per-byte table update (R124). -/
def crcStep (c : Half) (b : Byte) : Half :=
  (c >>> 8) ^^^ crcRom ((c ^^^ b.setWidth 16).extractLsb' 0 8)

/-- The loop of `crc16` over a byte sequence (R123). -/
def crcFold (c : Half) : List Byte → Half
  | [] => c
  | b :: rest => crcFold (crcStep c b) rest

/-- `crc16` of a byte sequence: the seed itself on the empty one (R123, R126). -/
def crc16Of : List Byte → Half
  | [] => crcSeed
  | b :: rest => crcFold crcSeed (b :: rest) ^^^ crcXorOut

/-- `crc16(BUF, start, end)` (R123). -/
def State.crc16 (s : State) (start stop : Nat) : Half := crc16Of (s.bufRange start (stop - start))

/-- R125's pseudocode, with the issue check of R281 that an empty range escapes. -/
def crc16Body (s : State) : Stage :=
  if s.op.rangeEmpty then .cont { s with res := { s.res with rCrc := crcSeed } }
  else
    (bufCheck s).bind fun s =>
      if s.op.bufLen.toNat < s.op.opEnd.toNat then raiseStage .range 1 0 s.op.opEnd.toNat s
      else .cont { s with res := { s.res with rCrc := s.crc16 s.op.opStart.toNat s.op.opEnd.toNat } }

/-- What a failed CRC16 leaves unspecified: R_CRC (R125, R297). -/
def spoilCrc16 (s : State) : State :=
  { s with res := { s.res with rCrc := s.anyReg 16 0x21 } }.bump

/-- CRC16 (R125). -/
def execCrc16 (s : State) : Host.Outcome State Fault Refusal := .next (issue spoilCrc16 crc16Body s)

/-- R130's pseudocode. -/
def tblrdBody (s : State) : Stage :=
  .cont { s with res := { s.res with rCrc := crcRom s.op.opByte } }

/-- TBLRD (R130). -/
def execTblrd (s : State) : Host.Outcome State Fault Refusal := .next (issue id tblrdBody s)

end Sys2Proof.Machine
end

