-- ==== Sys2Proof/Machine/BitField.lean ====
section
/-! DEFINITION. Unit U3, the bit-field extractor (R140 to R150): BITX, DCTL, and the range word's own step
(R146), which BITC and the BS descriptor run for each of their range words. -/

namespace Sys2Proof.Machine

/-- The width `w = e − s + 1` of a range (R140). -/
def extractWidth (s e : BitVec 3) : Nat := e.toNat - s.toNat + 1

/-- The value `(b >> s) & ((1 << w) − 1)` (R140). -/
def extract (b : Byte) (s e : BitVec 3) : Byte :=
  (b >>> s.toNat) &&& ((1#8 <<< extractWidth s e) - 1#8)

/-! ### BITX -/

/-- R141's pseudocode. -/
def bitxBody (s : State) : Stage :=
  if s.op.specRsv ≠ 0#2 ∨ s.op.specStop.toNat < s.op.specStart.toNat then
    raiseStage .dictionary 1 0 0 s
  else
    .cont { s with
      res := { s.res with
        rBits := extract s.op.opByte s.op.specStart s.op.specStop
        rBitw := BitVec.ofNat 4 (extractWidth s.op.specStart s.op.specStop) } }

/-- What a failed BITX leaves unspecified: R_BITS, R_BITW (R141, R297). -/
def spoilBitx (s : State) : State :=
  { s with res := { s.res with rBits := s.anyReg 8 0x22, rBitw := s.anyReg 4 0x23 } }.bump

/-- BITX (R141). -/
def execBitx (s : State) : Host.Outcome State Fault Refusal := .next (issue spoilBitx bitxBody s)

/-! ### Control bytes -/

/-- CI_f for one layout entry (R31, R149). -/
def controlField (b : Byte) : Option BitRange → Byte
  | some r => extract b r.start r.stop
  | none => 0#8

/-- CI_MASK: bits 0 to 4 for DIR, PRM, ADDR, VER, FUNC (R30, R149). -/
def controlMask (l : Layout) : BitVec 5 :=
  BitVec.ofBool l.func.isSome ++ BitVec.ofBool l.ver.isSome ++ BitVec.ofBool l.addr.isSome
    ++ BitVec.ofBool l.prm.isSome ++ BitVec.ofBool l.dir.isSome

/-- `decode_control(b, p)` (R149). -/
def decodeControl (b : Byte) (l : Layout) (s : State) : State :=
  { s with
    res := { s.res with
      fCtrl := b
      ciDir := controlField b l.dir
      ciPrm := controlField b l.prm
      ciAddr := controlField b l.addr
      ciVer := controlField b l.ver
      ciFunc := controlField b l.func
      ciMask := controlMask l } }

/-- R148's pseudocode. -/
def dctlBody (s : State) : Stage :=
  match s.op.proto with
  | none => raiseStage .range 2 0 3 s
  | some p => .cont (decodeControl s.op.opByte (s.layout p) s)

/-- What a failed DCTL leaves unspecified: F_CTRL and CI_* (R148, R297). -/
def spoilDctl (s : State) : State := (spoilControl s).bump

/-- DCTL (R148). -/
def execDctl (s : State) : Host.Outcome State Fault Refusal := .next (issue spoilDctl dctlBody s)

/-! ### Range words and composites -/

/-- A range word in range position: one turn of `composite`'s loop (R146). -/
def rangeTurn (r : RangeFields) (c : Composite) (s : State) : Stage :=
  if r.rsvHi ≠ 0#5 ∨ r.rsvLo ≠ 0#1 then raiseStage .dictionary 2 r.sub c.pos s
  else if r.stop.toNat < r.start.toNat then raiseStage .dictionary 1 r.sub c.pos s
  else
    .cont { s with
      comp := some
        { c with
          pos := c.pos + 1
          subs := c.subs ++ [⟨r.sub, r.start, r.stop, extract c.byte r.start r.stop⟩] } }

/-- RANGE's step: inside a composite, R146; where a descriptor is expected, DictionaryError (R89 b, R162). -/
def rangeBody (r : RangeFields) (s : State) : Stage :=
  match s.comp with
  | some c => rangeTurn r c s
  | none => raiseStage .dictionary 2 r.sub s.dpIndex s

/-- RANGE (R90, R146). -/
def execRange (r : RangeFields) (s : State) : Host.Outcome State Fault Refusal :=
  .next (rangeBody r s).state

/-- The fetch of one range word and its step; a word of another kind is malformed here (R90, R145, R146). -/
def rangeFetch (s : State) : Stage :=
  match s.comp with
  | none => .cont s
  | some c =>
    match s.dromWord c.pos with
    | none => raiseStage .dictionary 3 0 c.pos s
    | some w =>
      if wordTag w = 7#4 then rangeBody (wordRange w) s
      else raiseStage .dictionary 2 (wordName w) c.pos s

/-- `k` range words in textual order (R146). -/
def rangeWords : Nat → State → Stage
  | 0, s => .cont s
  | k + 1, s => (rangeFetch s).bind (rangeWords k)

/-- `composite(b, p, k)`: its sub-values stand in `comp` when it ends (R146). -/
def composite (b : Byte) (p k : Nat) (s : State) : Stage :=
  rangeWords k { s with comp := some ⟨b, p + 1, []⟩ }

/-- The sub-values `composite` returned (R146). -/
def State.subs (s : State) : List SubValue :=
  match s.comp with
  | some c => c.subs
  | none => []

/-! ### BITC -/

/-- R144's pseudocode once the head word is known to be a BS word. -/
def bitcHead (h : Head) (s : State) : Stage :=
  if h.l ≠ 0#1 ∨ h.rsv ≠ 0#3 then raiseStage .dictionary 2 h.name s.op.opPtr.toNat s
  else
    (composite s.op.opByte s.op.opPtr.toNat h.size.toNat s).bind fun s =>
      .cont { s with
        recs := [⟨s.op.opPtr, h.name, .bs s.op.opByte s.subs⟩]
        res := { s.res with recCnt := 1#16, rem := 0#16 }
        status := s.status.recSet
        comp := none }

/-- R144's pseudocode, with R282 first. -/
def bitcBody (s : State) : Stage :=
  let s := { s with status := s.status.recCleared }
  match s.dromWord s.op.opPtr.toNat with
  | none => raiseStage .dictionary 3 0 s.op.opPtr.toNat s
  | some w =>
    if wordTag w = 2#4 then bitcHead (wordHead w) s
    else raiseStage .dictionary 2 (wordName w) s.op.opPtr.toNat s

/-- What a failed BITC leaves unspecified: REC, REC_CNT, REM (R144, R297). -/
def spoilBitc (s : State) : State := (spoilRecord s).bump

/-- BITC (R144). -/
def execBitc (s : State) : Host.Outcome State Fault Refusal := .next (issue spoilBitc bitcBody s)

end Sys2Proof.Machine
end

