-- ==== Sys2Proof/Machine/Interp.lean ====
section
/-! DEFINITION. Unit U5, the payload field interpreter (R160 to R182): the descriptor words' meanings, the walk
that runs them, and INTERP. -/

namespace Sys2Proof.Machine

/-! ### What the descriptors share -/

/-- `need(h, n)` (R164), over unbounded integers: `P_END − CUR < n` written without the subtraction. -/
def need (name : Half) (n : Nat) (s : State) : Stage :=
  if s.res.pEnd.toNat < s.cur.toNat + n then raiseStage .insufficientData 0 name s.cur.toNat s
  else .cont s

/-- A malformed head word: DictionaryError sub 2 (R89, R166 to R176). -/
def malformed (h : Head) (s : State) : Stage := raiseStage .dictionary 2 h.name s.dpIndex s

/-- Append the entry `(DP, h.name, kind, value)` to REC (R23, R168 to R176). -/
def emit (name : Half) (v : RecValue) (s : State) : State :=
  { s with
    recs := s.recs ++ [⟨s.dp, name, v⟩]
    res := { s.res with recCnt := s.res.recCnt + 1#16 } }

/-- CUR advances by the bytes consumed, DP by the words occupied, and the walk fetches again (R162, R180). -/
def advance (bytes words : Nat) (s : State) : State :=
  { State.setDp (s.dpIndex + words) s with cur := s.cur + BitVec.ofNat 16 bytes, ism := .fetch }

/-- LENVAL and LENVLD after a BIN field with L = 1 (R168, R169). -/
def latchLength (h : Head) (v : Nat) (s : State) : State :=
  if h.l = 1#1 then { s with lenVal := v, lenVld := true } else s

/-! ### The descriptors -/

/-- `exec_END` and the end of the walk (R162, R166, R178). -/
def endListBody (h : Head) (s : State) : Stage :=
  if h ≠ Head.zero then malformed h s
  else
    .cont { s with
      res := { s.res with rem := s.res.pEnd - s.cur }
      status := s.status.recSet
      ism := .done }

/-- `exec_BIN` (R168). -/
def binBody (h : Head) (s : State) : Stage :=
  if h.rsv ≠ 0#3 then malformed h s
  else
    (need h.name h.size.toNat s).bind fun s =>
      let v := le (s.payRange s.cur.toNat h.size.toNat)
      .cont (advance h.size.toNat 1 (latchLength h v (emit h.name (.bin h.size v) s)))

/-- `exec_BS` (R170): the data check comes before the range words (R177). -/
def bsBody (h : Head) (s : State) : Stage :=
  if h.rsv ≠ 0#3 ∨ h.l ≠ 0#1 then malformed h s
  else
    (need h.name 1 s).bind fun s =>
      (composite (s.pay s.cur.toNat) s.dpIndex h.size.toNat s).bind fun t =>
        .cont (advance 1 (1 + h.size.toNat)
          { emit h.name (.bs (s.pay s.cur.toNat) t.subs) t with comp := none })

/-- `glyph(c)`: both bounds inclusive (R173). -/
def State.glyph (s : State) (c : Byte) : Byte :=
  if 32 ≤ c.toNat ∧ c.toNat ≤ 126 then c else s.cfg.val.placeholder

/-- `exec_ASCII` (R172). -/
def asciiBody (h : Head) (s : State) : Stage :=
  if h.rsv ≠ 0#3 ∨ h.l ≠ 0#1 then malformed h s
  else
    (need h.name h.size.toNat s).bind fun s =>
      .cont (advance h.size.toNat 1
        (emit h.name (.ascii ((s.payRange s.cur.toNat h.size.toNat).map s.glyph)) s))

/-- A byte's bits 7:4 (R174, R175). -/
def hiNibble (b : Byte) : BitVec 4 := b.extractLsb' 4 4

/-- A byte's bits 3:0 (R174, R175). -/
def loNibble (b : Byte) : BitVec 4 := b.extractLsb' 0 4

/-- The century of a BCD date (R6, R174). -/
def bcdCentury : Byte := 20#8

/-- `exec_BCDDATE` (R174): year, month, day in cursor order. -/
def bcdDateBody (h : Head) (s : State) : Stage :=
  if h.rsv ≠ 0#3 ∨ h.l ≠ 0#1 ∨ h.size ≠ 3#8 then malformed h s
  else
    (need h.name 3 s).bind fun s =>
      let y := s.pay s.cur.toNat
      let m := s.pay (s.cur.toNat + 1)
      let d := s.pay (s.cur.toNat + 2)
      .cont (advance 3 1 (emit h.name
        (.bcdDate bcdCentury (hiNibble y) (loNibble y) (hiNibble m) (loNibble m) (hiNibble d) (loNibble d)) s))

/-- `exec_BCD` (R175). -/
def bcdBody (h : Head) (s : State) : Stage :=
  if h.rsv ≠ 0#3 ∨ h.l ≠ 0#1 ∨ h.size ≠ 2#8 then malformed h s
  else
    (need h.name 2 s).bind fun s =>
      let a := s.pay s.cur.toNat
      let b := s.pay (s.cur.toNat + 1)
      .cont (advance 2 1 (emit h.name (.bcd (hiNibble a) (loNibble a) (hiNibble b) (loNibble b)) s))

/-- `exec_CONTENT` (R176). -/
def contentBody (h : Head) (s : State) : Stage :=
  if h.rsv ≠ 0#3 ∨ h.l ≠ 0#1 ∨ h.size ≠ 0#8 then malformed h s
  else if s.lenVld = false then raiseStage .missingLengthField 0 h.name s.dpIndex s
  else
    (need h.name s.lenVal s).bind fun s =>
      .cont (advance s.lenVal 1 (emit h.name (.content (s.payRange s.cur.toNat s.lenVal)) s))

/-- An unrecognised tag: UnknownFieldTypeError with the tag as sub-code (R89 a, R162, R167). -/
def unknownTagBody (t : BitVec 3) (h : Head) (s : State) : Stage :=
  raiseStage .unknownFieldType ((1#1 ++ t).setWidth 8) h.name s.dpIndex s

/-- END (R166). -/
def execEndList (h : Head) (s : State) : Host.Outcome State Fault Refusal := .next (endListBody h s).state

/-- BIN (R168). -/
def execBin (h : Head) (s : State) : Host.Outcome State Fault Refusal := .next (binBody h s).state

/-- BS (R170). -/
def execBs (h : Head) (s : State) : Host.Outcome State Fault Refusal := .next (bsBody h s).state

/-- ASCII (R172). -/
def execAscii (h : Head) (s : State) : Host.Outcome State Fault Refusal := .next (asciiBody h s).state

/-- BCDDATE (R174). -/
def execBcdDate (h : Head) (s : State) : Host.Outcome State Fault Refusal := .next (bcdDateBody h s).state

/-- BCD (R175). -/
def execBcd (h : Head) (s : State) : Host.Outcome State Fault Refusal := .next (bcdBody h s).state

/-- CONTENT (R176). -/
def execContent (h : Head) (s : State) : Host.Outcome State Fault Refusal := .next (contentBody h s).state

/-- A word with an unrecognised tag (R167). -/
def execUnknownTag (t : BitVec 3) (h : Head) (s : State) : Host.Outcome State Fault Refusal :=
  .next (unknownTagBody t h s).state

/-! ### The walk -/

/-- `case h.tag` of R162 on a decoded word. A DROM word never decodes to a command. -/
def descriptor (i : Instr) (s : State) : Stage :=
  match i with
  | .endList h => endListBody h s
  | .bin h => binBody h s
  | .bs h => bsBody h s
  | .ascii h => asciiBody h s
  | .bcdDate h => bcdDateBody h s
  | .bcd h => bcdBody h s
  | .content h => contentBody h s
  | .range r => rangeBody r s
  | .unknownTag t h => unknownTagBody t h s
  | .nop | .chksum | .crc16 | .tblrd | .bitx | .bitc | .dctl | .interp => .stop s
  | .parsea | .parseb | .parsec | .enca => .stop s
  | .reserved0c _ | .reserved10 _ | .reserved20 _ | .reserved40 _ | .reserved80 _ => .stop s

/-- One turn of the walk's loop: fetch at DP, then execute (R162, R165, R180). -/
def walkTurn (s : State) : Stage :=
  match s.dromWord s.dpIndex with
  | none => raiseStage .dictionary 3 0 s.dpIndex s
  | some w => descriptor (decodeDesc w) { s with ism := .exec }

/-- The loop of R162. It leaves after END, when ISM is I_DONE; `fuel` bounds the turns and DROM_SIZE + 1 always
suffice, since DP grows at each turn. -/
def walk : Nat → State → Stage
  | 0, s => .stop s
  | fuel + 1, s =>
    (walkTurn s).bind fun t =>
      match t.ism with
      | .fetch => walk fuel t
      | .idle | .exec | .done | .error => .cont t

/-- The start of `interpret(base)` (R162). LENVLD and LENVAL "are cleared at the start of every interpretation"
(R37). -/
def interpretBegin (base : Half) (s : State) : State :=
  { s with
    ism := .fetch
    cur := s.res.pStart
    dp := base
    dpPast := false
    comp := none
    recs := []
    res := { s.res with recCnt := 0#16 }
    lenVld := false
    lenVal := 0 }

/-- `interpret(base)` (R162). -/
def interpret (base : Half) (s : State) : Stage :=
  walk (s.dromSize + 1) (interpretBegin base s)

/-! ### INTERP -/

/-- R161's pseudocode, with R282 first and the issue check of R281. -/
def interpBody (s : State) : Stage :=
  (bufCheck s).bind fun s =>
    let s := { s with status := s.status.recCleared }
    if s.op.rangeBad then raiseStage .range 1 0 s.op.opEnd.toNat s
    else
      interpret s.op.opPtr
        { s with res := { s.res with pStart := s.op.opStart, pEnd := s.op.opEnd, deobf := 0#8 } }

/-- What a failed INTERP leaves unspecified: P_START, P_END, DEOBF, REC, REC_CNT, REM (R161, R297). -/
def spoilInterp (s : State) : State := (spoilPayload (spoilRecord s)).bump

/-- INTERP (R161). -/
def execInterp (s : State) : Host.Outcome State Fault Refusal := .next (issue spoilInterp interpBody s)

end Sys2Proof.Machine
end

