-- ==== Sys2Proof/Machine/Parse.lean ====
section
/-! DEFINITION. Unit U4, the frame envelope validators (R200 to R246): the stages, and PARSEA, PARSEB, PARSEC as
their sequence. `N` is BUF_LEN (`State.frameLen`), `E` the index of the first trailer byte. -/

namespace Sys2Proof.Machine

/-- START (R6). -/
def startMarker : Byte := 0x68#8

/-- ENDM (R6). -/
def endMarker : Byte := 0x16#8

/-- OBF (R6). -/
def obfuscation : Byte := 0x33#8

/-- Envelope field identifiers (R292). -/
inductive FieldId where
  | start
  | length
  | control
  | address
  | addrDst
  | addrHeader
  | trail
  | hcs
  | func
  | seq
  | ident
  | endMark
  | start2
  deriving DecidableEq, Repr

/-- The numbers of R292; ADDR_SRC and ADDRESS share one. -/
def FieldId.code : FieldId → Half
  | .start => 1
  | .length => 2
  | .control => 3
  | .address => 4
  | .addrDst => 5
  | .addrHeader => 6
  | .trail => 7
  | .hcs => 8
  | .func => 9
  | .seq => 10
  | .ident => 11
  | .endMark => 13
  | .start2 => 14

/-! ### Shared stages -/

/-- `insufficient(field, off)`: EnvelopeError sub 4 (R204). -/
def insufficient (f : FieldId) (off : Nat) (s : State) : Stage := raiseStage .envelope 4 f.code off s

/-- The FSM enters a stage (R33, R244). -/
def State.enter (f : Fsm) (s : State) : State := { s with fsm := f }

/-- `parse_begin()` (R201). With lengths 0 no byte of ADDR0 or ADDR1 is specified (R24). -/
def parseBegin (s : State) : State :=
  { s with
    status := s.status.parseCleared
    res := { s.res with addr0Len := 0#5, addr1Len := 0#5, recCnt := 0#16, rem := 0#16 }
    addr0 := []
    addr0Gen := s.draws
    addr1 := []
    addr1Gen := s.draws
    draws := s.draws + 1
    recs := []
    fsm := .start }

/-- START stage (R202). -/
def startStage (s : State) : Stage :=
  if s.frameLen < 1 then insufficient .start 0 s
  else if s.bufByte 0 ≠ startMarker then raiseStage .envelope 1 FieldId.start.code 0 s
  else .cont s

/-- END stage (R242). -/
def endStage (s : State) : Stage :=
  let s := s.enter .endMark
  if s.bufByte (s.frameLen - 1) ≠ endMarker then
    raiseStage .envelope 2 FieldId.endMark.code (s.frameLen - 1) s
  else .cont (s.enter .done)

/-- The payload range and subtractor (R214, R228, R239). -/
def setPayload (start stop : Nat) (deobf : Byte) (s : State) : State :=
  { s with
    res := { s.res with
      pStart := BitVec.ofNat 16 start, pEnd := BitVec.ofNat 16 stop, deobf := deobf } }

/-- A dictionary miss (R238). -/
def lookupMiss (s : State) : State :=
  { s with
    status := s.status.missed
    recs := []
    res := { s.res with recCnt := 0#16, rem := s.res.pEnd - s.res.pStart }
    cur := s.res.pStart }

/-- `delegate(k)` (R238). -/
def delegate (k : Option Nat) (s : State) : Stage :=
  match k.bind s.dictLookup with
  | none => .cont (lookupMiss s)
  | some base => interpret base s

/-- The CHECKSUM stage's registers and flag (R215, R229, R243). -/
def setCheck (declared computed : Half) (s : State) : State :=
  { s with
    res := { s.res with ckDecl := declared, ckComp := computed }
    status := s.status.withCk declared computed }

/-- `ADDR0[0..n) <- rev(BUF[a..a+n))` and its length (R208, R224, R233). -/
def setAddr0 (a n : Nat) (s : State) : State :=
  { s with
    addr0 := Memory.ofBytes 0 (reverseBytes (s.bufRange a n))
    res := { s.res with addr0Len := BitVec.ofNat 5 n } }

/-- `ADDR1[0..n) <- rev(BUF[a..a+n))` and its length (R208). -/
def setAddr1 (a n : Nat) (s : State) : State :=
  { s with
    addr1 := Memory.ofBytes 0 (reverseBytes (s.bufRange a n))
    res := { s.res with addr1Len := BitVec.ofNat 5 n } }

/-- CONTROL stage once the byte is available (R203). -/
def decodeControlAt (i : Nat) (p : Proto) (s : State) : State :=
  decodeControl (s.bufByte i) (s.layout p) s

/-- The 16-bit little-endian number at BUF[a] (R66, R68). -/
def State.bufLe16 (s : State) (a : Nat) : Half := BitVec.ofNat 16 (le (s.bufRange a 2))

/-! ### The lookup keys of Protocols B and C (R7, R228, R239) -/

/-- The width and value of one piece of a key; none where the view has no such piece. -/
def keyPart (v : KeyView) : KeyPart → Option (Nat × Nat)
  | .fLen => some (16, v.fLen.toNat)
  | .fCtrl => some (8, v.fCtrl.toNat)
  | .ciDir => some (8, v.ciDir.toNat)
  | .ciPrm => some (8, v.ciPrm.toNat)
  | .ciAddr => some (8, v.ciAddr.toNat)
  | .ciVer => some (8, v.ciVer.toNat)
  | .ciFunc => some (8, v.ciFunc.toNat)
  | .ciMask => some (5, v.ciMask.toNat)
  | .addr0 i => v.addr0[i]?.map fun b => (8, b.toNat)
  | .bAtype => v.header.map fun h => (2, h.bAtype.toNat)
  | .bLaddr => v.header.map fun h => (2, h.bLaddr.toNat)
  | .bTrail => v.header.map fun h => (8, h.bTrail.toNat)
  | .hkDecl => v.header.map fun h => (16, h.hkDecl.toNat)
  | .hkComp => v.header.map fun h => (16, h.hkComp.toNat)
  | .hkValid => v.header.map fun h => (1, h.hkValid.toNat)
  | .fFunc => v.fFunc.map fun b => (8, b.toNat)
  | .pStart => some (16, v.pStart.toNat)
  | .pEnd => some (16, v.pEnd.toNat)
  | .deobf => some (8, v.deobf.toNat)
  | .payload i => v.payload[i]?.map fun b => (8, (b - v.deobf).toNat)
  | .const w n => some (w, n % 2 ^ w)

/-- The pieces concatenated behind the number already read (R9's `++`). -/
def keyConcat (v : KeyView) (acc : Nat) : List KeyPart → Option Nat
  | [] => some acc
  | p :: rest => (keyPart v p).bind fun x => keyConcat v (acc * 2 ^ x.1 + x.2) rest

/-- The value a table lists for a view. -/
def keyTable (v : KeyView) : List (KeyView × Nat) → Option Nat
  | [] => none
  | (w, k) :: rest => if v = w then some k else keyTable v rest

/-- The key a KEY_B or KEY_C gives for a view (R7). -/
def keyOf (f : KeyFn) (v : KeyView) : Option Nat :=
  match f with
  | .never => none
  | .parts ps => keyConcat v 0 ps
  | .table rows => keyTable v rows

/-! ### Protocol A -/

/-- `E = N − 2` (R206). -/
def State.trailerA (s : State) : Nat := s.frameLen - 2

/-- LENGTH stage (R206). -/
def lengthStageA (s : State) : Stage :=
  let s := s.enter .length
  if s.frameLen < 3 then insufficient .length 1 s
  else
    let s := { s with res := { s.res with fLen := s.bufLe16 1 } }
    if s.res.fLen.toNat ≠ s.frameLen then raiseStage .envelope 3 FieldId.length.code 1 s
    else .cont s

/-- CONTROL stage (R207). -/
def controlStageA (s : State) : Stage :=
  let s := s.enter .control
  if s.trailerA < 4 then insufficient .control 3 s
  else .cont (decodeControlAt 3 .a s)

/-- The address is present exactly when CI_ADDR ≠ 0 (R207). -/
def State.hasAddrA (s : State) : Bool := decide (s.res.ciAddr ≠ 0#8)

/-- `o`: the index of the function code (R97, R205). -/
def State.funcAtA (s : State) : Nat := if s.hasAddrA then 16 else 4

/-- ADDRESS stage, only when the address is present (R205, R208). -/
def addressStageA (s : State) : Stage :=
  if s.hasAddrA then
    let s := s.enter .address
    if s.trailerA < 10 then insufficient .address 4 s
    else
      let s := setAddr0 4 6 s
      if s.trailerA < 16 then insufficient .addrDst 10 s
      else .cont (setAddr1 10 6 s)
  else .cont s

/-- PAYLOAD stage, part 1: the function code (R209). -/
def funcStageA (s : State) : Stage :=
  let s := s.enter .payload
  if s.trailerA < s.funcAtA + 1 then insufficient .func s.funcAtA s
  else .cont { s with res := { s.res with fFunc := s.bufByte s.funcAtA } }

/-- PAYLOAD stage, part 2: the sequence byte (R210). -/
def seqStageA (s : State) : Stage :=
  if s.trailerA < s.funcAtA + 2 then insufficient .seq (s.funcAtA + 1) s
  else .cont { s with res := { s.res with fSeq := s.bufByte (s.funcAtA + 1) } }

/-- PAYLOAD stage, part 3: the identifier (R211, R213). -/
def identStageA (s : State) : Stage :=
  if s.trailerA < s.funcAtA + 6 then insufficient .ident (s.funcAtA + 2) s
  else
    .cont { s with
      res := { s.res with fIdent := BitVec.ofNat 32 (le (s.bufRange (s.funcAtA + 2) 4)) } }

/-- The Protocol-A lookup key `F_FUNC ++ F_IDENT` (R100). -/
def State.keyA (s : State) : Nat := (s.res.fFunc ++ s.res.fIdent).toNat

/-- PAYLOAD stage, part 4 (R214). -/
def payloadStageA (s : State) : Stage :=
  let s := setPayload (s.funcAtA + 6) s.trailerA 0#8 s
  delegate (some s.keyA) s

/-- CHECKSUM stage (R215). -/
def checksumStageA (s : State) : Stage :=
  let s := s.enter .checksum
  .cont (setCheck ((s.bufByte s.trailerA).setWidth 16) ((s.checksum 3 s.trailerA).setWidth 16) s)

/-- R205's pseudocode, with the issue check of R281. -/
def parseaBody (s : State) : Stage :=
  (((((((((bufCheck s).bind fun s => startStage (parseBegin s)).bind lengthStageA).bind controlStageA).bind
    addressStageA).bind funcStageA).bind seqStageA).bind identStageA).bind payloadStageA).bind
    fun s => (checksumStageA s).bind endStage

/-- What a failed PARSEA leaves unspecified (R205, R245, R297). -/
def spoilParsea (s : State) : State :=
  let s := spoilAddress (spoilFrame (spoilPayload (spoilRecord (spoilControl s))))
  { s with
    res := { s.res with fFunc := s.anyReg 8 0x35, fSeq := s.anyReg 8 0x36, fIdent := s.anyReg 32 0x37 } }.bump

/-- PARSEA (R205). -/
def execParsea (s : State) : Host.Outcome State Fault Refusal := .next (issue spoilParsea parseaBody s)

/-! ### Protocol B -/

/-- `E = N − 3` (R221). -/
def State.trailerB (s : State) : Nat := s.frameLen - 3

/-- `AL = BUF[4][3:0] + 1`, 1..16 (R98, R223). -/
def State.addrLenB (s : State) : Nat := ((s.bufByte 4).extractLsb' 0 4).toNat + 1

/-- LENGTH stage (R221). -/
def lengthStageB (s : State) : Stage :=
  let s := s.enter .length
  if s.frameLen < 3 then insufficient .length 1 s
  else
    let s := { s with res := { s.res with fLen := s.bufLe16 1 } }
    if s.res.fLen.toNat ≠ s.frameLen - 2 then raiseStage .envelope 3 FieldId.length.code 1 s
    else .cont s

/-- CONTROL stage (R222). -/
def controlStageB (s : State) : Stage :=
  let s := s.enter .control
  if s.trailerB < 4 then insufficient .control 3 s
  else .cont (decodeControlAt 3 .b s)

/-- ADDRESS stage, part 1: the address header (R223). -/
def addrHeaderStageB (s : State) : Stage :=
  let s := s.enter .address
  if s.trailerB < 5 then insufficient .addrHeader 4 s
  else
    .cont { s with
      res := { s.res with
        bAtype := (s.bufByte 4).extractLsb' 6 2, bLaddr := (s.bufByte 4).extractLsb' 4 2 } }

/-- ADDRESS stage, part 2: the address bytes (R224, R225). -/
def addressStageB (s : State) : Stage :=
  if s.trailerB < 5 + s.addrLenB then insufficient .address 5 s
  else
    let s := setAddr0 5 s.addrLenB s
    .cont { s with res := { s.res with addr1Len := 0#5 } }

/-- ADDRESS stage, part 3: the trailing byte (R226). -/
def trailStageB (s : State) : Stage :=
  if s.trailerB < 6 + s.addrLenB then insufficient .trail (5 + s.addrLenB) s
  else .cont { s with res := { s.res with bTrail := s.bufByte (5 + s.addrLenB) } }

/-- HCS stage: the header CRC; a mismatch is not fatal (R227). -/
def hcsStageB (s : State) : Stage :=
  let s := s.enter .hcs
  if s.trailerB < 8 + s.addrLenB then insufficient .hcs (6 + s.addrLenB) s
  else
    let declared := s.bufLe16 (6 + s.addrLenB)
    let computed := s.crc16 1 (6 + s.addrLenB)
    .cont { s with
      res := { s.res with hkDecl := declared, hkComp := computed }
      status := s.status.withHk declared computed }

/-- The payload bytes as they stand in BUF (R228, R239). -/
def State.payloadBytes (s : State) : List Byte :=
  s.bufRange s.res.pStart.toNat (s.res.pEnd.toNat - s.res.pStart.toNat)

/-- ADDR0's valid bytes (R24). -/
def State.addr0Bytes (s : State) : List Byte := (List.range s.res.addr0Len.toNat).map s.addr0Byte

/-- What KEY_B may look at: the registers PARSEB has written so far (R228). -/
def State.keyViewB (s : State) : KeyView where
  fLen := s.res.fLen
  fCtrl := s.res.fCtrl
  ciDir := s.res.ciDir
  ciPrm := s.res.ciPrm
  ciAddr := s.res.ciAddr
  ciVer := s.res.ciVer
  ciFunc := s.res.ciFunc
  ciMask := s.res.ciMask
  addr0 := s.addr0Bytes
  header := some ⟨s.res.bAtype, s.res.bLaddr, s.res.bTrail, s.res.hkDecl, s.res.hkComp, s.status.hkValid⟩
  fFunc := none
  pStart := s.res.pStart
  pEnd := s.res.pEnd
  deobf := s.res.deobf
  payload := s.payloadBytes

/-- PAYLOAD stage (R228). -/
def payloadStageB (s : State) : Stage :=
  let s := setPayload (8 + s.addrLenB) s.trailerB 0#8 (s.enter .payload)
  delegate (keyOf s.cfg.val.keyB s.keyViewB) s

/-- CHECKSUM stage: the frame CRC (R229). -/
def checksumStageB (s : State) : Stage :=
  let s := s.enter .checksum
  .cont (setCheck (s.bufLe16 s.trailerB) (s.crc16 1 s.trailerB) s)

/-- R220's pseudocode, with the issue check of R281. -/
def parsebBody (s : State) : Stage :=
  (((((((((bufCheck s).bind fun s => startStage (parseBegin s)).bind lengthStageB).bind controlStageB).bind
    addrHeaderStageB).bind addressStageB).bind trailStageB).bind hcsStageB).bind payloadStageB).bind
    fun s => (checksumStageB s).bind endStage

/-- What a failed PARSEB leaves unspecified (R220, R245, R297). -/
def spoilParseb (s : State) : State :=
  let s := spoilAddress (spoilFrame (spoilPayload (spoilRecord (spoilControl s))))
  { s with
    res := { s.res with
      bAtype := s.anyReg 2 0x32, bLaddr := s.anyReg 2 0x33, bTrail := s.anyReg 8 0x34
      hkDecl := s.anyReg 16 0x26, hkComp := s.anyReg 16 0x27 } }.bump

/-- PARSEB (R220). -/
def execParseb (s : State) : Host.Outcome State Fault Refusal := .next (issue spoilParseb parsebBody s)

/-! ### Protocol C -/

/-- `E = 10 + F_LEN` (R237). -/
def State.trailerC (s : State) : Nat := 10 + s.res.fLen.toNat

/-- ADDRESS stage (R233, R236). -/
def addressStageC (s : State) : Stage :=
  let s := s.enter .address
  if s.frameLen < 7 then insufficient .address 1 s
  else
    let s := setAddr0 1 6 s
    .cont { s with res := { s.res with addr1Len := 0#5 } }

/-- Second START stage (R234). -/
def start2StageC (s : State) : Stage :=
  let s := s.enter .start
  if s.frameLen < 8 then insufficient .start2 7 s
  else if s.bufByte 7 ≠ startMarker then raiseStage .envelope 1 FieldId.start2.code 7 s
  else .cont s

/-- CONTROL stage (R235): the function code is the low five bits. -/
def controlStageC (s : State) : Stage :=
  let s := s.enter .control
  if s.frameLen < 9 then insufficient .control 8 s
  else
    let s := decodeControlAt 8 .c s
    .cont { s with res := { s.res with fFunc := ((s.bufByte 8).extractLsb' 0 5).setWidth 8 } }

/-- LENGTH stage (R237). -/
def lengthStageC (s : State) : Stage :=
  let s := s.enter .length
  if s.frameLen < 10 then insufficient .length 9 s
  else
    let s := { s with res := { s.res with fLen := (s.bufByte 9).setWidth 16 } }
    if s.frameLen ≠ s.res.fLen.toNat + 12 then raiseStage .envelope 3 FieldId.length.code 9 s
    else .cont s

/-- What KEY_C may look at: the registers PARSEC has written so far (R239). -/
def State.keyViewC (s : State) : KeyView where
  fLen := s.res.fLen
  fCtrl := s.res.fCtrl
  ciDir := s.res.ciDir
  ciPrm := s.res.ciPrm
  ciAddr := s.res.ciAddr
  ciVer := s.res.ciVer
  ciFunc := s.res.ciFunc
  ciMask := s.res.ciMask
  addr0 := s.addr0Bytes
  header := none
  fFunc := some s.res.fFunc
  pStart := s.res.pStart
  pEnd := s.res.pEnd
  deobf := s.res.deobf
  payload := s.payloadBytes

/-- PAYLOAD stage (R239). -/
def payloadStageC (s : State) : Stage :=
  let s := setPayload 10 s.trailerC obfuscation (s.enter .payload)
  delegate (keyOf s.cfg.val.keyC s.keyViewC) s

/-- CHECKSUM stage (R243): over the bytes as they stand in BUF (R241). -/
def checksumStageC (s : State) : Stage :=
  let s := s.enter .checksum
  .cont (setCheck ((s.bufByte s.trailerC).setWidth 16) ((s.checksum 0 s.trailerC).setWidth 16) s)

/-- R232's pseudocode, with the issue check of R281. -/
def parsecBody (s : State) : Stage :=
  (((((((bufCheck s).bind fun s => startStage (parseBegin s)).bind addressStageC).bind start2StageC).bind
    controlStageC).bind lengthStageC).bind payloadStageC).bind
    fun s => (checksumStageC s).bind endStage

/-- What a failed PARSEC leaves unspecified (R232, R245, R297). -/
def spoilParsec (s : State) : State :=
  let s := spoilAddress (spoilFrame (spoilPayload (spoilRecord (spoilControl s))))
  { s with res := { s.res with fFunc := s.anyReg 8 0x35 } }.bump

/-- PARSEC (R232). -/
def execParsec (s : State) : Host.Outcome State Fault Refusal := .next (issue spoilParsec parsecBody s)

end Sys2Proof.Machine
end

