-- ==== Sys2Proof/Machine/System.lean ====
section
/-! DEFINITION. NOP (R284) and the reserved command opcodes (R83, R302). -/

namespace Sys2Proof.Machine

/-- NOP (R284): what issue does and nothing else. -/
def execNop (s : State) : Host.Outcome State Fault Refusal := .next (issue id Stage.cont s)

/-- Opcodes 0x0C..0x0F: BadCommand (R83). -/
def execReserved0c (low : BitVec 2) (s : State) : Host.Outcome State Fault Refusal :=
  .next (issueReserved (0b000011#6 ++ low) s)

/-- Opcodes 0x10..0x1F: BadCommand (R83). -/
def execReserved10 (low : BitVec 4) (s : State) : Host.Outcome State Fault Refusal :=
  .next (issueReserved (0b0001#4 ++ low) s)

/-- Opcodes 0x20..0x3F: BadCommand (R83). -/
def execReserved20 (low : BitVec 5) (s : State) : Host.Outcome State Fault Refusal :=
  .next (issueReserved (0b001#3 ++ low) s)

/-- Opcodes 0x40..0x7F: BadCommand (R83). -/
def execReserved40 (low : BitVec 6) (s : State) : Host.Outcome State Fault Refusal :=
  .next (issueReserved (0b01#2 ++ low) s)

/-- Opcodes 0x80..0xFF: BadCommand (R83). -/
def execReserved80 (low : BitVec 7) (s : State) : Host.Outcome State Fault Refusal :=
  .next (issueReserved (0b1#1 ++ low) s)

end Sys2Proof.Machine
end

