-- ==== Sys2Proof/Machine/Dispatch.lean ====
section
/-! DEFINITION. One arm per constructor of Instr, each a direct call of that instruction's meaning. -/

namespace Sys2Proof.Machine

def exec (i : Instr) (s : State) : Host.Outcome State Fault Refusal :=
  match i with
  | .nop => Sys2Proof.Machine.execNop s
  | .chksum => Sys2Proof.Machine.execChksum s
  | .crc16 => Sys2Proof.Machine.execCrc16 s
  | .tblrd => Sys2Proof.Machine.execTblrd s
  | .bitx => Sys2Proof.Machine.execBitx s
  | .bitc => Sys2Proof.Machine.execBitc s
  | .dctl => Sys2Proof.Machine.execDctl s
  | .interp => Sys2Proof.Machine.execInterp s
  | .parsea => Sys2Proof.Machine.execParsea s
  | .parseb => Sys2Proof.Machine.execParseb s
  | .parsec => Sys2Proof.Machine.execParsec s
  | .enca => Sys2Proof.Machine.execEnca s
  | .reserved0c low => Sys2Proof.Machine.execReserved0c low s
  | .reserved10 low => Sys2Proof.Machine.execReserved10 low s
  | .reserved20 low => Sys2Proof.Machine.execReserved20 low s
  | .reserved40 low => Sys2Proof.Machine.execReserved40 low s
  | .reserved80 low => Sys2Proof.Machine.execReserved80 low s
  | .endList h => Sys2Proof.Machine.execEndList h s
  | .bin h => Sys2Proof.Machine.execBin h s
  | .bs h => Sys2Proof.Machine.execBs h s
  | .ascii h => Sys2Proof.Machine.execAscii h s
  | .bcdDate h => Sys2Proof.Machine.execBcdDate h s
  | .bcd h => Sys2Proof.Machine.execBcd h s
  | .content h => Sys2Proof.Machine.execContent h s
  | .range r => Sys2Proof.Machine.execRange r s
  | .unknownTag t h => Sys2Proof.Machine.execUnknownTag t h s

end Sys2Proof.Machine
end

