-- ==== Sys2Proof/Machine/Port.lean ====
section
/-! DEFINITION. The host port: what one host access does (R280, R281, R285), and how an instruction is placed to
run next. -/

namespace Sys2Proof.Machine

/-- The one access the host may make while BUSY = 1 is to poll STATUS (R72, R338; D19). -/
def HostAccess.isPoll : HostAccess → Bool
  | .regRead num => num == 0x01#8
  | .regWrite _ _ | .bufWrite _ _ | .bufRead _ | .txRead _ | .recRead _ | .addr0Read _ | .addr1Read _ => false

/-- A host read's answer; it changes nothing else (R64: "every read is idempotent"). -/
def answer (r : Reply) (s : State) : State := { s with reply := some r }

/-- The entry a host read of REC gives: past REC_CNT any value (U2). -/
def State.recAt (s : State) (i : Nat) : RecEntry :=
  if i < s.res.recCnt.toNat then s.recs.getD i (Config.anyEntry s.draws i)
  else Config.anyEntry s.draws i

/-- A TXBUF read (R22). -/
def accessTx (i : Half) (s : State) : Host.Outcome State Fault Refusal :=
  if s.cfg.val.hasEncoder then
    if i.toNat < s.cfg.val.txCap then .next (answer (.byte (s.txByte i.toNat)) s) else .fault .noSuchIndex
  else .fault .absentMemory

/-- One host access at a command boundary (R280). A write of CMD decodes the low 8 bits and runs that command
(R80, R281). -/
def perform (a : HostAccess) (s : State) : Host.Outcome State Fault Refusal :=
  match a with
  | .regWrite num v =>
    if num = 0x00#8 then exec (decodeCmd (v.setWidth 8)) s else .next (writeReg num v s)
  | .regRead num => .next (answer (.reg (readReg num s)) s)
  | .bufWrite i b =>
    if i.toNat < s.cfg.val.bufCap then .next { s with buf := Memory.set s.buf i.toNat b }
    else .fault .noSuchIndex
  | .bufRead i =>
    if i.toNat < s.cfg.val.bufCap then .next (answer (.byte (s.bufByte i.toNat)) s)
    else .fault .noSuchIndex
  | .txRead i => accessTx i s
  | .recRead i => .next (answer (.entry (s.recAt i.toNat)) s)
  | .addr0Read i => .next (answer (.byte (s.addr0Byte i.toNat)) s)
  | .addr1Read i => .next (answer (.byte (s.addr1Byte i.toNat)) s)

/-- One host access: while BUSY = 1 only a STATUS poll has a transition (R283, R338, U5). -/
def access (a : HostAccess) (s : State) : Host.Outcome State Fault Refusal :=
  if s.status.busy && !a.isPoll then .fault .accessWhileBusy else perform a s

/-- The next host access taken from those to come; with none the FCC waits (R322, R332). -/
def takeAccess (s : State) : Host.Outcome State Fault Refusal :=
  match s.inbox with
  | [] => .next s
  | a :: rest => access a { s with inbox := rest }

/-! ### Placing an instruction to run next -/

/-- The host's write of a command opcode as the next access (R80, R281); BUSY is 0 for it to start a command. -/
def placeCommand (opc : Nat) (s : State) : State :=
  { s with
    status := { s.status with busy := false }
    inbox := .regWrite 0x00#8 (BitVec.ofNat 32 opc) :: s.inbox }

/-- A DROM holding one or two given words from index 0 and a zero word after them. No walk goes past the zero: where
a descriptor is expected it is END (R166), and where a range word is expected it is malformed (R90). -/
def dromOf (ws : List Word) : List Word := ws.take 2 ++ [0x00000000#32]

theorem dromOf_length (ws : List Word) : 1 ≤ (dromOf ws).length ∧ (dromOf ws).length ≤ 3 := by
  rw [dromOf, List.length_append, List.length_singleton, List.length_take]
  omega

theorem withDrom_wf (c : Config) (ws : List Word) (h : c.wf = true) :
    ({ c with drom := dromOf ws } : Config).wf = true := by
  have hl := dromOf_length ws
  simp only [Config.wf, Config.addrMaskA, Bool.and_eq_true, decide_eq_true_eq] at h ⊢
  exact ⟨⟨⟨⟨h.1.1.1.1, by omega⟩, h.1.1.2⟩, h.1.2⟩, h.2⟩

/-- The configuration with that DROM: the dictionary is loaded from outside while the FCC is idle (R75). -/
def withDrom (c : WfConfig) (ws : List Word) : WfConfig :=
  ⟨{ c.val with drom := dromOf ws }, withDrom_wf c.val ws c.property⟩

/-- Operand registers with which INTERP reaches its first fetch (R161, R281): kept if they already do. -/
def walkOperands (s : State) : OpRegs :=
  if s.cfg.val.bufCap < s.op.bufLen.toNat || s.op.rangeBad then
    { s.op with bufLen := 0#16, opStart := 0#16, opEnd := 0#16, opPtr := 0#16 }
  else { s.op with opPtr := 0#16 }

/-- A head word at DROM index 0 with INTERP issued on it: the next step's walk fetches and runs it first. -/
def placeHead (w : Word) (s : State) : State :=
  placeCommand 0x07 { s with cfg := withDrom s.cfg [w], op := walkOperands s }

/-- A range word where it is an instruction, after a BS head word of one range (R88, R90), with BITC issued on that
head. -/
def placeRange (w : Word) (s : State) : State :=
  placeCommand 0x05
    { s with cfg := withDrom s.cfg [0x20010000#32, w], op := { s.op with opPtr := 0#16 } }

/-- A DROM word placed where the next step runs it. -/
def placeDescriptor (w : Nat) (s : State) : State :=
  if wordTag (BitVec.ofNat 32 w) = 7#4 then placeRange (BitVec.ofNat 32 w) s
  else placeHead (BitVec.ofNat 32 w) s

end Sys2Proof.Machine
end

