-- ==== Sys2Proof/Machine/Step.lean ====
section
/-! DEFINITION. One step: the next host access, and with it, on a write of CMD, one whole command (R71, R72,
R281). -/

namespace Sys2Proof.Machine

/-- One step of the FCC. -/
def step (s : State) : Host.Outcome State Fault Refusal := takeAccess s

/-- The instruction whose bits are `w` placed where the next step runs it: a command as the host's write of CMD, a
descriptor word as the first word of the list that INTERP walks. -/
def State.withFetchWord (s : State) (nbits w : Nat) : State :=
  if nbits = 8 then placeCommand w s else placeDescriptor w s

end Sys2Proof.Machine
end

