-- ==== Sys2Proof/Safety.lean ====
section
/-! DEFINITION. What a safe run is, in the terms the statements use: the host respects the interface, and the state
keeps the shape that the rules give it between commands. -/

namespace Sys2Proof.Machine

/-- Between commands: BUSY = 0, FSM is IDLE, DONE or ERROR (R32), the interpreter is not running (R180), and no
composite is being decoded. -/
def State.AtRest (s : State) : Prop :=
  s.status.busy = false ∧ s.parsing = false ∧ s.walking = false ∧ s.comp = none

/-- The byte memories are in canonical form and hold nothing past their sizes (R21, R22, R24). -/
def State.MemoryOk (s : State) : Prop :=
  (Memory.wf s.buf = true ∧ Memory.below s.buf s.cfg.val.bufCap = true)
    ∧ (Memory.wf s.tx = true ∧ Memory.below s.tx s.cfg.val.txCap = true)
    ∧ (Memory.wf s.addr0 = true ∧ Memory.below s.addr0 16 = true)
    ∧ (Memory.wf s.addr1 = true ∧ Memory.below s.addr1 16 = true)

/-- ERRCODE is 0 exactly when ERR = 0, the other error registers are then 0 too, and only the codes 2 to 9 are ever
produced (R27, R290). -/
def State.ErrorsOk (s : State) : Prop :=
  (s.status.err = false → s.err = ErrRegs.zero)
    ∧ (s.status.err = true → 2 ≤ s.err.code.toNat ∧ s.err.code.toNat ≤ 9)

/-- While REC_VALID = 1, REC_CNT counts the entries of REC (R23, R26). -/
def State.RecordOk (s : State) : Prop :=
  s.status.recValid = true → s.res.recCnt.toNat = s.recs.length

/-- LENVAL is no wider than the widest fixed-binary field (R37). -/
def State.LengthOk (s : State) : Prop := s.lenVal < 2 ^ 2040

/-- Without the encoder, TXBUF and SEQ are absent: nothing is ever stored there (R22, R29). -/
def State.EncoderOk (s : State) : Prop :=
  s.cfg.val.hasEncoder = false → s.tx = [] ∧ s.seq = 0#8 ∧ s.res.txLen = 0#16

/-- DP stands at 65536 only in a DROM of that size (R35). -/
def State.PointerOk (s : State) : Prop := s.dpPast = true → s.dromSize = 65536

/-- The invariant of the FCC between host accesses. -/
structure State.Inv (s : State) : Prop where
  atRest : s.AtRest
  memory : s.MemoryOk
  errors : s.ErrorsOk
  record : s.RecordOk
  length : s.LengthOk
  encoder : s.EncoderOk
  pointer : s.PointerOk

/-- A host access that the interface allows in a state (R21, R22, R280, R338): it has a transition. -/
def HostAccess.Allowed (a : HostAccess) (s : State) : Prop :=
  (s.status.busy = false ∨ a.isPoll = true) ∧
    match a with
    | .bufWrite i _ | .bufRead i => i.toNat < s.cfg.val.bufCap
    | .txRead i => s.cfg.val.hasEncoder = true ∧ i.toNat < s.cfg.val.txCap
    | .regWrite _ _ | .regRead _ | .recRead _ | .addr0Read _ | .addr1Read _ => True

end Sys2Proof.Machine
end

