-- ==== Sys2Proof/Certificates/Slice0/Obligations.lean ====
section
/-! DEFINITION. The statements for the provers. `Sys2Proof.Spec` holds the arithmetic they are written in, taken from
the rules and not from the model's operations: sums, little-endian numbers, the bit-serial CRC, bit fields. -/

namespace Sys2Proof.Spec

open Sys2Proof.Machine

/-- STATUS at the end of a command without an error (R281). -/
def done (f : Status) : Status := { f with busy := false, done := true, err := false }

/-- STATUS at the end of a command that raised (R296). -/
def failed (f : Status) : Status := { f with busy := false, done := true, err := true }

/-- The state after `raise` with the four error registers given, if nothing else changes (R296). -/
def raised (code sub : Byte) (field off : Half) (s : State) : State :=
  { s with
    status := failed s.status
    err := ⟨code, sub, field, off⟩
    fsm := if s.parsing then .error else s.fsm
    ism := if s.walking then .error else s.ism
    comp := none }

/-- `Σ BUF[a+i]` for i < n. -/
def byteSum (s : State) (a n : Nat) : Nat := ((List.range n).map fun i => (s.bufByte (a + i)).toNat).sum

/-- `BUF[a..a+n)` (R10). -/
def wire (s : State) (a n : Nat) : List Byte := (List.range n).map fun i => s.bufByte (a + i)

/-- `le(BUF[a..a+n)) = Σ BUF[a+i]·256^i` (R10, R66). -/
def leNum (s : State) (a n : Nat) : Nat :=
  ((List.range n).map fun i => (s.bufByte (a + i)).toNat * 256 ^ i).sum

/-- `pay(i) = u8(BUF[i] − DEOBF)` (R63). -/
def payByte (s : State) (i : Nat) : Byte := s.bufByte i - s.res.deobf

/-- `[pay(a), …, pay(a+n−1)]`. -/
def payBytes (s : State) (a n : Nat) : List Byte := (List.range n).map fun i => payByte s (a + i)

/-- `le` of the payload bytes from a (R168). -/
def payNum (s : State) (a n : Nat) : Nat :=
  ((List.range n).map fun i => (payByte s (a + i)).toNat * 256 ^ i).sum

/-- One iteration of the generator: test bit 0, then shift (R120). -/
def crcBit (c : Half) : Half := if c.toNat % 2 = 1 then (c >>> 1) ^^^ 0x8408#16 else c >>> 1

/-- `step_bitwise(c, byte)` (R124). -/
def crcByte (c : Half) (b : Byte) : Half := crcBit^[8] (c ^^^ b.setWidth 16)

/-- `crc16` by the bit-serial form (R123, R124, R126). -/
def crcSerial (bs : List Byte) : Half :=
  if bs = [] then 0xFFFF#16 else bs.foldl crcByte 0xFFFF#16 ^^^ 0xFFFF#16

/-- `b[e:s]` as an 8-bit value (R140). -/
def bitField (b : Byte) (s e : BitVec 3) : Byte :=
  BitVec.ofNat 8 (b.toNat / 2 ^ s.toNat % 2 ^ (e.toNat - s.toNat + 1))

/-- CI_f for a layout entry (R31). -/
def ctlField (b : Byte) (r : Option BitRange) : Byte :=
  match r with
  | some r => bitField b r.start r.stop
  | none => 0#8

/-- CI_MASK for a layout (R30, R31). -/
def ctlMask (l : Layout) : BitVec 5 :=
  BitVec.ofNat 5 (l.dir.isSome.toNat + 2 * l.prm.isSome.toNat + 4 * l.addr.isSome.toNat
    + 8 * l.ver.isSome.toNat + 16 * l.func.isSome.toNat)

/-- The ControlInfo registers after `decode_control(b, p)` (R31, R149). -/
def controlRes (l : Layout) (b : Byte) (r : ResRegs) : ResRegs :=
  { r with
    fCtrl := b
    ciDir := ctlField b l.dir
    ciPrm := ctlField b l.prm
    ciAddr := ctlField b l.addr
    ciVer := ctlField b l.ver
    ciFunc := ctlField b l.func
    ciMask := ctlMask l }

/-- A sub-value of byte b under a range word (R146). -/
def subOf (b : Byte) (r : RangeFields) : SubValue := ⟨r.sub, r.start, r.stop, bitField b r.start r.stop⟩

/-- The walk's pointer advanced by a number of words; DP shows it where its 16 bits can (R35, R162; past them it is
log entry 6). -/
def Advanced (s t : State) (words : Nat) : Prop :=
  t.dpIndex = s.dpIndex + words
    ∧ (s.dpIndex + words < 65536 → t.dp = BitVec.ofNat 16 (s.dpIndex + words))

/-- The DROM words after index p decode to the given range words, each well formed (R90, R146). -/
abbrev RangesAt (s : State) (p : Nat) (rs : List RangeFields) : Prop :=
  ∀ j : Fin rs.length, (s.dromWord (p + 1 + j)).map decodeDesc = some (.range rs[j]) ∧ rs[j].ok = true

/-- What R145 and R146 find wrong with the word in range position q, in their order: past the ROM, not a range word
or with reserved bits, start > end; none for a well-formed range word. -/
def rangeFault (s : State) (q : Nat) : Option ErrRegs :=
  match s.dromWord q with
  | none => some ⟨6, 3, 0, BitVec.ofNat 16 q⟩
  | some w =>
    if w.toNat / 2 ^ 28 ≠ 7 ∨ w.toNat / 2 ^ 23 % 32 ≠ 0 ∨ w.toNat / 2 ^ 19 % 2 ≠ 0 then
      some ⟨6, 2, BitVec.ofNat 16 w.toNat, BitVec.ofNat 16 q⟩
    else if w.toNat / 2 ^ 20 % 8 < w.toNat / 2 ^ 16 % 8 then
      some ⟨6, 1, BitVec.ofNat 16 w.toNat, BitVec.ofNat 16 q⟩
    else none

/-- Of the k range words after index p the first ones are the given good ones, and the next is the first that is
found wrong, with e (R146). -/
abbrev RangeFails (s : State) (p k : Nat) (rs : List RangeFields) (e : ErrRegs) : Prop :=
  rs.length < k ∧ RangesAt s p rs ∧ rangeFault s (p + 1 + rs.length) = some e

/-- ERROFF for a DROM index: the index, where 16 bits hold it (R293; past them it is log entry 6). -/
def OffsetOf (off : Half) (index : Nat) : Prop := index < 65536 → off = BitVec.ofNat 16 index

/-- A command, as against a descriptor word. -/
def IsCommand (i : Instr) : Prop := ∃ b, encode i = .cmd b

/-- The PARSE commands. -/
def IsParse (i : Instr) : Prop := i = .parsea ∨ i = .parseb ∨ i = .parsec

/-- The operand registers' widths by number (R28); none for a number that is no operand register. SEQ is absent
without the encoder (R29). -/
def operandWidth (s : State) (num : Nat) : Option Nat :=
  match num with
  | 0x10 | 0x11 | 0x12 | 0x15 => some 16
  | 0x13 | 0x14 | 0x18 => some 8
  | 0x16 => some 2
  | 0x17 => some 1
  | 0x19 => some 32
  | 0x1A => if s.cfg.val.hasEncoder then some 8 else none
  | _ => none

/-- STATUS as the host reads it (R26). -/
def statusValue (f : Status) : Nat :=
  f.busy.toNat + 2 * f.done.toNat + 4 * f.err.toNat + 8 * f.ckValid.toNat + 16 * f.hkValid.toNat
    + 32 * f.dictMiss.toNat + 64 * f.recValid.toNat

/-- FSM's numbers (R33). -/
def fsmNumber : Fsm → Nat
  | .idle => 0
  | .start => 1
  | .length => 2
  | .control => 3
  | .address => 4
  | .hcs => 5
  | .payload => 6
  | .checksum => 7
  | .endMark => 8
  | .done => 9
  | .error => 10

/-- ISM's numbers (R36). -/
def ismNumber : Ism → Nat
  | .idle => 0
  | .fetch => 1
  | .exec => 2
  | .done => 3
  | .error => 4

/-- The register map: what a host read of each number gives (R25 to R30, R33 to R36); a number in no table reads 0
(R285). SEQ without the encoder is log entry 9. -/
def registerValue (s : State) (num : Nat) : Nat :=
  match num with
  | 0x01 => statusValue s.status
  | 0x02 => s.err.code.toNat
  | 0x03 => s.err.sub.toNat
  | 0x04 => s.err.field.toNat
  | 0x05 => s.err.off.toNat
  | 0x06 => fsmNumber s.fsm
  | 0x07 => ismNumber s.ism
  | 0x10 => s.op.bufLen.toNat
  | 0x11 => s.op.opStart.toNat
  | 0x12 => s.op.opEnd.toNat
  | 0x13 => s.op.opByte.toNat
  | 0x14 => s.op.opSpec.toNat
  | 0x15 => s.op.opPtr.toNat
  | 0x16 => s.op.opProto.toNat
  | 0x17 => s.op.opDir.toNat
  | 0x18 => s.op.opFunc.toNat
  | 0x19 => s.op.opIdent.toNat
  | 0x1A => if s.cfg.val.hasEncoder then s.seq.toNat else 0
  | 0x20 => s.res.rSum.toNat
  | 0x21 => s.res.rCrc.toNat
  | 0x22 => s.res.rBits.toNat
  | 0x23 => s.res.rBitw.toNat
  | 0x24 => s.res.ckDecl.toNat
  | 0x25 => s.res.ckComp.toNat
  | 0x26 => s.res.hkDecl.toNat
  | 0x27 => s.res.hkComp.toNat
  | 0x28 => s.res.fLen.toNat
  | 0x29 => s.res.fCtrl.toNat
  | 0x2A => s.res.ciDir.toNat
  | 0x2B => s.res.ciPrm.toNat
  | 0x2C => s.res.ciAddr.toNat
  | 0x2D => s.res.ciVer.toNat
  | 0x2E => s.res.ciFunc.toNat
  | 0x2F => s.res.ciMask.toNat
  | 0x30 => s.res.addr0Len.toNat
  | 0x31 => s.res.addr1Len.toNat
  | 0x32 => s.res.bAtype.toNat
  | 0x33 => s.res.bLaddr.toNat
  | 0x34 => s.res.bTrail.toNat
  | 0x35 => s.res.fFunc.toNat
  | 0x36 => s.res.fSeq.toNat
  | 0x37 => s.res.fIdent.toNat
  | 0x38 => s.res.pStart.toNat
  | 0x39 => s.res.pEnd.toNat
  | 0x3A => s.res.deobf.toNat
  | 0x3B => s.res.rem.toNat
  | 0x3C => s.res.recCnt.toNat
  | 0x3D => s.res.txLen.toNat
  | 0x3E => s.cur.toNat
  | 0x3F => s.dp.toNat
  | _ => 0

/-- The operands of a command that reads a range of BUF without a fault (R110, R125). -/
abbrev RangeFits (s : State) : Prop :=
  s.op.opStart.toNat < s.op.opEnd.toNat ∧ s.op.opEnd.toNat ≤ s.op.bufLen.toNat
    ∧ s.op.bufLen.toNat ≤ s.cfg.val.bufCap

/-- The range of INTERP and ENCA, which may be empty (R161, R261). -/
abbrev RangeAllowed (s : State) : Prop :=
  s.op.opStart.toNat ≤ s.op.opEnd.toNat ∧ s.op.opEnd.toNat ≤ s.op.bufLen.toNat
    ∧ s.op.bufLen.toNat ≤ s.cfg.val.bufCap

/-- N (R205). -/
abbrev frameN (s : State) : Nat := s.op.bufLen.toNat

/-- No pair of the dictionary has this key: a miss (R41, R238). -/
abbrev Misses (s : State) (key : Nat) : Prop := ∀ p ∈ s.cfg.val.dict, p.1 ≠ key

/-- BUF holds a Protocol-A frame without address but for its checksum (R97, R206, R207, R242). -/
abbrev FrameA (s : State) : Prop :=
  frameN s ≤ s.cfg.val.bufCap ∧ 12 ≤ frameN s ∧ s.bufByte 0 = 0x68#8 ∧ leNum s 1 2 = frameN s
    ∧ ctlField (s.bufByte 3) s.cfg.val.layoutA.addr = 0#8 ∧ s.bufByte (frameN s - 1) = 0x16#8

/-- BUF holds a Protocol-A frame with addresses but for its checksum (R97, R208). -/
abbrev FrameAAddr (s : State) : Prop :=
  frameN s ≤ s.cfg.val.bufCap ∧ 24 ≤ frameN s ∧ s.bufByte 0 = 0x68#8 ∧ leNum s 1 2 = frameN s
    ∧ ctlField (s.bufByte 3) s.cfg.val.layoutA.addr ≠ 0#8 ∧ s.bufByte (frameN s - 1) = 0x16#8

/-- The key `F_FUNC ++ F_IDENT` of the frame whose function code stands at o (R100). -/
abbrev keyAt (s : State) (o : Nat) : Nat := (s.bufByte o).toNat * 2 ^ 32 + leNum s (o + 2) 4

/-- AL (R98). -/
abbrev addrLen (s : State) : Nat := (s.bufByte 4).toNat % 16 + 1

/-- BUF holds a Protocol-B frame but for its CRCs (R98, R221, R231). -/
abbrev FrameB (s : State) : Prop :=
  frameN s ≤ s.cfg.val.bufCap ∧ 11 + addrLen s ≤ frameN s ∧ s.bufByte 0 = 0x68#8
    ∧ leNum s 1 2 = frameN s - 2 ∧ s.bufByte (frameN s - 1) = 0x16#8

/-- BUF holds a Protocol-C frame but for its checksum (R99, R237). -/
abbrev FrameC (s : State) : Prop :=
  frameN s ≤ s.cfg.val.bufCap ∧ 10 ≤ frameN s ∧ frameN s = (s.bufByte 9).toNat + 12
    ∧ s.bufByte 0 = 0x68#8 ∧ s.bufByte 7 = 0x68#8 ∧ s.bufByte (frameN s - 1) = 0x16#8

/-- The control byte says that the frame carries addresses (R207). -/
abbrev HasAddr (s : State) : Prop := ctlField (s.bufByte 3) s.cfg.val.layoutA.addr ≠ 0#8

/-- `o` (R205). -/
abbrev funcAt (s : State) : Nat := if HasAddr s then 16 else 4

/-- The first check that the stages before Protocol A's lookup fail, in their order (R202, R206 to R211, R246). -/
def headFaultA (s : State) : Option ErrRegs :=
  let n := frameN s
  let o := funcAt s
  if n < 1 then some ⟨2, 4, 1, 0⟩
  else if s.bufByte 0 ≠ 0x68#8 then some ⟨2, 1, 1, 0⟩
  else if n < 3 then some ⟨2, 4, 2, 1⟩
  else if leNum s 1 2 ≠ n then some ⟨2, 3, 2, 1⟩
  else if n - 2 < 4 then some ⟨2, 4, 3, 3⟩
  else if HasAddr s ∧ n - 2 < 10 then some ⟨2, 4, 4, 4⟩
  else if HasAddr s ∧ n - 2 < 16 then some ⟨2, 4, 5, 10⟩
  else if n - 2 < o + 1 then some ⟨2, 4, 9, BitVec.ofNat 16 o⟩
  else if n - 2 < o + 2 then some ⟨2, 4, 10, BitVec.ofNat 16 (o + 1)⟩
  else if n - 2 < o + 6 then some ⟨2, 4, 11, BitVec.ofNat 16 (o + 2)⟩
  else none

/-- The same for Protocol B (R202, R221 to R227). -/
def headFaultB (s : State) : Option ErrRegs :=
  let n := frameN s
  let al := addrLen s
  if n < 1 then some ⟨2, 4, 1, 0⟩
  else if s.bufByte 0 ≠ 0x68#8 then some ⟨2, 1, 1, 0⟩
  else if n < 3 then some ⟨2, 4, 2, 1⟩
  else if leNum s 1 2 ≠ n - 2 then some ⟨2, 3, 2, 1⟩
  else if n - 3 < 4 then some ⟨2, 4, 3, 3⟩
  else if n - 3 < 5 then some ⟨2, 4, 6, 4⟩
  else if n - 3 < 5 + al then some ⟨2, 4, 4, 5⟩
  else if n - 3 < 6 + al then some ⟨2, 4, 7, BitVec.ofNat 16 (5 + al)⟩
  else if n - 3 < 8 + al then some ⟨2, 4, 8, BitVec.ofNat 16 (6 + al)⟩
  else none

/-- The same for Protocol C (R202, R233 to R237). -/
def headFaultC (s : State) : Option ErrRegs :=
  let n := frameN s
  if n < 1 then some ⟨2, 4, 1, 0⟩
  else if s.bufByte 0 ≠ 0x68#8 then some ⟨2, 1, 1, 0⟩
  else if n < 7 then some ⟨2, 4, 4, 1⟩
  else if n < 8 then some ⟨2, 4, 14, 7⟩
  else if s.bufByte 7 ≠ 0x68#8 then some ⟨2, 1, 14, 7⟩
  else if n < 9 then some ⟨2, 4, 3, 8⟩
  else if n < 10 then some ⟨2, 4, 2, 9⟩
  else if n ≠ (s.bufByte 9).toNat + 12 then some ⟨2, 3, 2, 9⟩
  else none

/-- BUF holds a Protocol-A frame up to its trailer: the lookup is reached (R205). -/
abbrev BodyA (s : State) : Prop := frameN s ≤ s.cfg.val.bufCap ∧ headFaultA s = none

/-- BUF holds a Protocol-B frame up to its trailer (R220). -/
abbrev BodyB (s : State) : Prop := frameN s ≤ s.cfg.val.bufCap ∧ headFaultB s = none

/-- BUF holds a Protocol-C frame up to its trailer (R232). -/
abbrev BodyC (s : State) : Prop := frameN s ≤ s.cfg.val.bufCap ∧ headFaultC s = none

/-- The end marker is good (R242). -/
abbrev EndMark (s : State) : Prop := s.bufByte (frameN s - 1) = 0x16#8

/-- What the dictionary gives for a key, or for no key (R41, R238). -/
def found (s : State) (k : Option Nat) : Option Half := k.bind fun key => s.cfg.val.dict.lookup key

/-- What KEY_B looks at: Protocol B's registers up to the header CRC, and the payload bytes (R221 to R228). -/
def viewB (s : State) : KeyView :=
  let al := addrLen s
  let n := frameN s
  let l := s.cfg.val.layoutB
  let ctrl := s.bufByte 3
  let hk := crcSerial (wire s 1 (5 + al))
  { fLen := BitVec.ofNat 16 (n - 2)
    fCtrl := ctrl
    ciDir := ctlField ctrl l.dir
    ciPrm := ctlField ctrl l.prm
    ciAddr := ctlField ctrl l.addr
    ciVer := ctlField ctrl l.ver
    ciFunc := ctlField ctrl l.func
    ciMask := ctlMask l
    addr0 := (wire s 5 al).reverse
    header := some
      { bAtype := BitVec.ofNat 2 ((s.bufByte 4).toNat / 64)
        bLaddr := BitVec.ofNat 2 ((s.bufByte 4).toNat / 16)
        bTrail := s.bufByte (5 + al)
        hkDecl := BitVec.ofNat 16 (leNum s (6 + al) 2)
        hkComp := hk
        hkValid := decide (leNum s (6 + al) 2 = hk.toNat) }
    fFunc := none
    pStart := BitVec.ofNat 16 (8 + al)
    pEnd := BitVec.ofNat 16 (n - 3)
    deobf := 0#8
    payload := wire s (8 + al) (n - 11 - al) }

/-- What KEY_C looks at: Protocol C's registers up to the length, and the payload bytes (R233 to R239). -/
def viewC (s : State) : KeyView :=
  let n := frameN s
  let l := s.cfg.val.layoutC
  let ctrl := s.bufByte 8
  { fLen := BitVec.ofNat 16 (n - 12)
    fCtrl := ctrl
    ciDir := ctlField ctrl l.dir
    ciPrm := ctlField ctrl l.prm
    ciAddr := ctlField ctrl l.addr
    ciVer := ctlField ctrl l.ver
    ciFunc := ctlField ctrl l.func
    ciMask := ctlMask l
    addr0 := (wire s 1 6).reverse
    header := none
    fFunc := some (BitVec.ofNat 8 (ctrl.toNat % 32))
    pStart := 10#16
    pEnd := BitVec.ofNat 16 (n - 2)
    deobf := 0x33#8
    payload := wire s 10 (n - 12) }

/-- Any frame at its PAYLOAD stage, after parse_begin and the issue, before the registers of its protocol (R201, R281);
which memory bytes are then open is the model's form (log entry 4). -/
def payloadState (s : State) (hkValid : Bool) (a0 a1 : Memory) (r : ResRegs) : State :=
  { s with
    status := ⟨true, false, false, false, hkValid, false, false⟩
    err := ErrRegs.zero
    recs := []
    addr0 := a0
    addr1 := a1
    addr0Gen := s.draws
    addr1Gen := s.draws
    draws := s.draws + 1
    fsm := .payload
    res := { r with rem := 0#16, recCnt := 0#16 } }

/-- A Protocol-A frame where its payload is delegated (R205 to R214). -/
def payloadStateA (s : State) : State :=
  let o := funcAt s
  payloadState s false
    (if HasAddr s then Memory.ofBytes 0 (wire s 4 6).reverse else [])
    (if HasAddr s then Memory.ofBytes 0 (wire s 10 6).reverse else [])
    { controlRes s.cfg.val.layoutA (s.bufByte 3) s.res with
      fLen := s.op.bufLen
      fFunc := s.bufByte o
      fSeq := s.bufByte (o + 1)
      fIdent := BitVec.ofNat 32 (leNum s (o + 2) 4)
      pStart := BitVec.ofNat 16 (o + 6)
      pEnd := BitVec.ofNat 16 (frameN s - 2)
      deobf := 0#8
      addr0Len := if HasAddr s then 6#5 else 0#5
      addr1Len := if HasAddr s then 6#5 else 0#5 }

/-- A Protocol-B frame where its payload is delegated (R220 to R228). -/
def payloadStateB (s : State) : State :=
  let al := addrLen s
  let hk := crcSerial (wire s 1 (5 + al))
  payloadState s (decide (leNum s (6 + al) 2 = hk.toNat)) (Memory.ofBytes 0 (wire s 5 al).reverse) []
    { controlRes s.cfg.val.layoutB (s.bufByte 3) s.res with
      fLen := BitVec.ofNat 16 (frameN s - 2)
      addr0Len := BitVec.ofNat 5 al
      addr1Len := 0#5
      bAtype := BitVec.ofNat 2 ((s.bufByte 4).toNat / 64)
      bLaddr := BitVec.ofNat 2 ((s.bufByte 4).toNat / 16)
      bTrail := s.bufByte (5 + al)
      hkDecl := BitVec.ofNat 16 (leNum s (6 + al) 2)
      hkComp := hk
      pStart := BitVec.ofNat 16 (8 + al)
      pEnd := BitVec.ofNat 16 (frameN s - 3)
      deobf := 0#8 }

/-- A Protocol-C frame where its payload is delegated (R232 to R239). -/
def payloadStateC (s : State) : State :=
  payloadState s false (Memory.ofBytes 0 (wire s 1 6).reverse) []
    { controlRes s.cfg.val.layoutC (s.bufByte 8) s.res with
      fLen := BitVec.ofNat 16 (frameN s - 12)
      fFunc := BitVec.ofNat 8 ((s.bufByte 8).toNat % 32)
      addr0Len := 6#5
      addr1Len := 0#5
      pStart := 10#16
      pEnd := BitVec.ofNat 16 (frameN s - 2)
      deobf := 0x33#8 }

/-- `delegate(k)` (R238): on a miss the payload stands as a range, on a hit it is interpreted. -/
def delegated (s : State) (k : Option Nat) (p : State) : Stage :=
  match found s k with
  | none =>
    .cont { p with
      status := { p.status with dictMiss := true }
      recs := []
      res := { p.res with recCnt := 0#16, rem := p.res.pEnd - p.res.pStart }
      cur := p.res.pStart }
  | some base => interpret base p

/-- What a failed PARSE command leaves unchanged because its rule lists none of it under "Writes" (R205, R220, R232,
R297): the operands, SEQ, the memories BUF and TXBUF, and the result registers of other commands. -/
def FailedKeeps (i : Instr) (s t : State) : Prop :=
  (t.cfg = s.cfg ∧ t.op = s.op ∧ t.seq = s.seq ∧ t.inbox = s.inbox ∧ t.reply = s.reply)
    ∧ ((∀ a, t.bufByte a = s.bufByte a) ∧ (∀ a, t.txByte a = s.txByte a))
    ∧ (t.res.rSum = s.res.rSum ∧ t.res.rCrc = s.res.rCrc ∧ t.res.rBits = s.res.rBits
      ∧ t.res.rBitw = s.res.rBitw ∧ t.res.txLen = s.res.txLen)
    ∧ (i ≠ .parseb → t.res.hkDecl = s.res.hkDecl ∧ t.res.hkComp = s.res.hkComp ∧ t.res.bAtype = s.res.bAtype
      ∧ t.res.bLaddr = s.res.bLaddr ∧ t.res.bTrail = s.res.bTrail)
    ∧ (i = .parseb → t.res.fFunc = s.res.fFunc)
    ∧ (i ≠ .parsea → t.res.fSeq = s.res.fSeq ∧ t.res.fIdent = s.res.fIdent)

/-- How a PARSE command ends once its payload is delegated, with the declared and computed check values (R215, R229,
R238, R242, R243, R246, R297): a good end marker ends it in DONE; a wrong one raises EnvelopeError sub 2 with the
checksum's flag set; an error of the interpretation is the command's, and the checksum is not reached. -/
def ParseEnds (i : Instr) (s : State) (x : Stage) (decl comp : Half) : Prop :=
  (∀ u, x = .cont u → EndMark s →
    exec i s = .next
      { u with
        status := { done u.status with ckValid := decide (decl = comp) }
        res := { u.res with ckDecl := decl, ckComp := comp }
        fsm := .done })
  ∧ (∀ u, x = .cont u → ¬ EndMark s → s.AtRest →
    ∃ t, exec i s = .next t ∧ t.err = ⟨2, 2, 13, BitVec.ofNat 16 (frameN s - 1)⟩ ∧ t.fsm = .error
      ∧ t.status = { failed u.status with ckValid := decide (decl = comp), recValid := false }
      ∧ t.ism = u.ism ∧ t.cur = u.cur ∧ t.dp = u.dp ∧ FailedKeeps i s t)
  ∧ (∀ u, x = .stop u →
    ∃ t, exec i s = .next t ∧ t.err = u.err ∧ t.fsm = .error
      ∧ t.status = { failed u.status with ckValid := false, dictMiss := false, recValid := false }
      ∧ t.ism = u.ism ∧ t.cur = u.cur ∧ t.dp = u.dp ∧ FailedKeeps i s t)

end Sys2Proof.Spec

section

open Sys2Proof Sys2Proof.Machine Sys2Proof.Spec

/-! ### Encoding -/

/-- Decode of encode is the instruction, with every operand at every value (R82, R83, R85, R88, R90). -/
def Obligations.EncodeThenDecode : Prop := ∀ i : Instr, decodeStored (encode i) = i

/-- Every 8-bit and every 32-bit pattern is the encoding of what it decodes to: no bit is dropped. -/
def Obligations.DecodeThenEncode : Prop := ∀ e : Encoded, encode (decodeStored e) = e

/-- The worked encodings of R96. -/
def Obligations.WorkedEncodings : Prop :=
  decodeDesc 0x18010001#32 = .bin ⟨1, 0, 1, 1⟩ ∧ decodeDesc 0x10020005#32 = .bin ⟨0, 0, 2, 5⟩
    ∧ decodeDesc 0x20030002#32 = .bs ⟨0, 0, 3, 2⟩ ∧ decodeDesc 0x7077000A#32 = .range ⟨0, 7, 0, 7, 10⟩
    ∧ decodeDesc 0x7043000C#32 = .range ⟨0, 4, 0, 3, 12⟩ ∧ decodeDesc 0x30040003#32 = .ascii ⟨0, 0, 4, 3⟩
    ∧ decodeDesc 0x40030004#32 = .bcdDate ⟨0, 0, 3, 4⟩ ∧ decodeDesc 0x50020006#32 = .bcd ⟨0, 0, 2, 6⟩
    ∧ decodeDesc 0x60000007#32 = .content ⟨0, 0, 0, 7⟩ ∧ decodeDesc 0x00000000#32 = .endList ⟨0, 0, 0, 0⟩

/-- The command opcode map, the reserved opcodes, and the two widths a table word can have (R82, R83, R80, R84). -/
def Obligations.OpcodeMap : Prop :=
  [0x00#8, 0x01#8, 0x02#8, 0x03#8, 0x04#8, 0x05#8, 0x06#8, 0x07#8, 0x08#8, 0x09#8, 0x0A#8, 0x0B#8].map decodeCmd
      = [.nop, .chksum, .crc16, .tblrd, .bitx, .bitc, .dctl, .interp, .parsea, .parseb, .parsec, .enca]
    ∧ decodeCmd 0x0E#8 = .reserved0c 2 ∧ decodeCmd 0x1F#8 = .reserved10 15 ∧ decodeCmd 0x21#8 = .reserved20 1
    ∧ decodeCmd 0x7E#8 = .reserved40 62 ∧ decodeCmd 0xFF#8 = .reserved80 127
    ∧ decodeDesc 0xF0000009#32 = .unknownTag 7 ⟨0, 0, 0, 9⟩
    ∧ (∀ w, w < 2 ^ 8 → decodeTableWord 8 w = some (decodeCmd (BitVec.ofNat 8 w)))
    ∧ (∀ w, w < 2 ^ 32 → decodeTableWord 32 w = some (decodeDesc (BitVec.ofNat 32 w)))
    ∧ (∀ n w, n ≠ 8 → n ≠ 32 → decodeTableWord n w = none)

/-! ### The step and the host port -/

/-- A write of CMD at BUSY = 0 runs the command its low 8 bits decode to; the step adds only that the access is
taken from those to come, a list that is the model's own (R80, R281, R285; log entry 1). -/
def Obligations.StepRunsCommand : Prop :=
  ∀ (s : State) (v : Word) (rest : List HostAccess),
    s.status.busy = false → s.inbox = .regWrite 0x00#8 v :: rest →
      step s = exec (decodeCmd (v.setWidth 8)) { s with inbox := rest }

/-- The walk runs exactly the instruction the word at DP decodes to, and then goes on, ends or stops as ISM says; a
fetch at or past DROM_SIZE raises DictionaryError sub 3 at DP and ends it (R145, R162, R165, R180). -/
def Obligations.WalkRunsDescriptor : Prop :=
  ∀ s : State,
    (∀ w : Word, s.dromWord s.dpIndex = some w →
      exec (decodeDesc w) { s with ism := .exec } = .next (walkTurn s).state
        ∧ ∀ (n : Nat) (t : State),
          (walkTurn s = .cont t → t.ism = .fetch → walk (n + 1) s = walk n t)
            ∧ (walkTurn s = .cont t → t.ism = .done → walk (n + 1) s = .cont t)
            ∧ (walkTurn s = .stop t → walk (n + 1) s = .stop t))
    ∧ (∀ i, s.dromWord i = none ↔ s.dromSize ≤ i)
    ∧ (s.dromWord s.dpIndex = none →
      ∃ off d t, t = { raised 6 3 0 off s with draws := d } ∧ (s.dpPast = false → off = s.dp)
        ∧ walkTurn s = .stop t ∧ ∀ n, walk (n + 1) s = .stop t)

/-- With no host access to come the FCC keeps all its state (R322, R332; the list of accesses is the model's, log
entry 1). -/
def Obligations.IdleStepWaits : Prop := ∀ s : State, s.inbox = [] → step s = .next s

/-- While BUSY = 1 no host access but a STATUS read has a transition (R283, R338). The stop is a fault of the
model's own name (log entry 10). -/
def Obligations.BusyAccessStops : Prop :=
  ∀ (s : State) (a : HostAccess) (rest : List HostAccess),
    s.status.busy = true → s.inbox = a :: rest →
      (a ≠ .regRead 0x01#8 → step s = .fault .accessWhileBusy)
        ∧ (a = .regRead 0x01#8 →
            step s = .next { s with inbox := rest, reply := some (.reg (s.status.toByte.setWidth 32)) })

/-- A host write to an operand register stores the low bits; to any other number but CMD it is ignored; nothing else
changes (R28, R285; SEQ without the encoder is log entry 9). -/
def Obligations.RegisterWriteReadBack : Prop :=
  ∀ (s : State) (num : Byte) (v : Word) (rest : List HostAccess),
    s.status.busy = false → num ≠ 0x00#8 → s.inbox = .regWrite num v :: rest →
      ∃ t, step s = .next t ∧ t = { s with op := t.op, seq := t.seq, inbox := rest }
        ∧ (∀ m, m ≠ num → readReg m t = readReg m s)
        ∧ readReg num t =
            match operandWidth s num.toNat with
            | some width => BitVec.ofNat 32 (v.toNat % 2 ^ width)
            | none => readReg num s

/-- A host read answers and changes nothing else; every number reads as the register map says, and CMD and the numbers
not listed read 0 (R25 to R30, R33 to R36, R64, R285; the reply field is the model's, log entry 1). -/
def Obligations.HostReadsChangeNothing : Prop :=
  (∀ (s : State) (a : HostAccess) (rest : List HostAccess),
    s.status.busy = false → s.inbox = a :: rest → a.Allowed s →
      (∀ num v, a ≠ .regWrite num v) → (∀ i b, a ≠ .bufWrite i b) →
        ∃ r, step s = .next { s with inbox := rest, reply := some r }
          ∧ (∀ num, a = .regRead num → r = .reg (readReg num s))
          ∧ (∀ i, a = .bufRead i → r = .byte (s.bufByte i.toNat))
          ∧ (∀ i, a = .txRead i → r = .byte (s.txByte i.toNat))
          ∧ (∀ i, a = .addr0Read i → r = .byte (s.addr0Byte i.toNat))
          ∧ (∀ i, a = .addr1Read i → r = .byte (s.addr1Byte i.toNat))
          ∧ (∀ i, a = .recRead i → i.toNat < s.res.recCnt.toNat → ∀ e, s.recs[i.toNat]? = some e → r = .entry e))
    ∧ (∀ (s : State) (num : Byte), (readReg num s).toNat = registerValue s num.toNat)
    ∧ ∀ (s : State) (num : Byte),
      (num.toNat = 0 ∨ (8 ≤ num.toNat ∧ num.toNat ≤ 0x0F) ∨ (0x1B ≤ num.toNat ∧ num.toNat ≤ 0x1F)
        ∨ 0x40 ≤ num.toNat) → readReg num s = 0#32

/-- A host write of BUF stores that byte and no other, and keeps the memory's canonical form (R21, R280; the
form is the model's, log entry 4). -/
def Obligations.BufWriteStores : Prop :=
  ∀ (s : State) (i : Half) (b : Byte) (rest : List HostAccess),
    s.status.busy = false → i.toNat < s.cfg.val.bufCap → s.inbox = .bufWrite i b :: rest →
      ∃ t, step s = .next t ∧ t = { s with buf := t.buf, inbox := rest } ∧ t.bufByte i.toNat = b
        ∧ (∀ a, a ≠ i.toNat → t.bufByte a = s.bufByte a)
        ∧ (Memory.wf s.buf = true → Memory.wf t.buf = true)

/-! ### Reset and the machine as a whole -/

/-- After reset every register reads 0, REC is empty, the FCC is idle and the CRC table is complete, for every
configuration (R43, R330, R331). Which configuration State.reset carries is the model's choice (log entry 2). -/
def Obligations.ResetValues : Prop :=
  State.reset = State.resetWith Config.blank ∧
  ∀ c : WfConfig,
    (∀ num, readReg num (State.resetWith c) = 0#32) ∧ (State.resetWith c).recs = []
      ∧ (State.resetWith c).fsm = .idle ∧ (State.resetWith c).ism = .idle
      ∧ (State.resetWith c).lenVld = false ∧ (State.resetWith c).cfg = c ∧ (State.resetWith c).AtRest
      ∧ ∀ b : Byte, ∃ t,
          exec .tblrd { State.resetWith c with op := { (State.resetWith c).op with opByte := b } } = .next t
            ∧ t.res.rCrc = crcBit^[8] (b.setWidth 16)

/-- The invariant holds after reset, for every configuration. -/
def Obligations.ResetMeetsInvariant : Prop := ∀ c : WfConfig, (State.resetWith c).Inv

/-- Every step from every state that meets the invariant gives a state that meets it: the memories stay canonical,
FSM and ISM rest, ERR agrees with ERRCODE, REC_CNT counts REC. The canonical form, DP past 16 bits and TXBUF and SEQ
without the encoder are the model's (log entries 4, 6 and 9). -/
def Obligations.StepKeepsInvariant : Prop := ∀ s t : State, s.Inv → step s = .next t → t.Inv

/-- No instruction writes BUF, an operand register or the configuration (R20, R21, R28, R64). -/
def Obligations.InstructionsLeaveHostInputs : Prop :=
  ∀ (i : Instr) (s t : State), exec i s = .next t →
    (∀ a, t.bufByte a = s.bufByte a) ∧ t.buf = s.buf ∧ t.op = s.op ∧ t.cfg = s.cfg ∧ t.inbox = s.inbox
      ∧ t.reply = s.reply

/-- FSM is written by the PARSE commands alone (R33, R244). -/
def Obligations.OnlyParseMovesFsm : Prop :=
  ∀ (i : Instr) (s t : State), s.AtRest → ¬ IsParse i → exec i s = .next t → t.fsm = s.fsm

/-- A command that does not run the interpreter leaves ISM, CUR and DP unchanged (R162, R180). -/
def Obligations.OnlyInterpreterMovesItsRegisters : Prop :=
  ∀ (i : Instr) (s t : State), s.AtRest → IsCommand i → ¬ IsParse i → i ≠ .interp → exec i s = .next t →
    t.ism = s.ism ∧ t.cur = s.cur ∧ t.dp = s.dp ∧ t.lenVld = s.lenVld ∧ t.lenVal = s.lenVal

/-- SEQ grows by one, wrapping at 256, with each successful ENCA and with nothing else (R264, R303). -/
def Obligations.SeqCountsSuccessfulEncodes : Prop :=
  ∀ (i : Instr) (s t : State), exec i s = .next t →
    ((i = .enca ∧ t.status.err = false) → t.seq = s.seq + 1#8)
      ∧ (¬ (i = .enca ∧ t.status.err = false) → t.seq = s.seq)

/-- Every command ends, with BUSY = 0, DONE = 1 and the error registers agreeing with ERR (R27, R281, R290, R346). -/
def Obligations.EveryCommandEnds : Prop :=
  ∀ (i : Instr) (s : State), IsCommand i →
    ∃ t, exec i s = .next t ∧ t.status.busy = false ∧ t.status.done = true
      ∧ (t.status.err = false → t.err = ErrRegs.zero)
      ∧ (t.status.err = true → 2 ≤ t.err.code.toNat ∧ t.err.code.toNat ≤ 9)

/-- CK_VALID, HK_VALID and DICT_MISS change only with PARSE commands; REC_VALID only with those, INTERP and BITC
(R26, R281). -/
def Obligations.FlagsBelongToTheirCommands : Prop :=
  ∀ (i : Instr) (s t : State), IsCommand i → ¬ IsParse i → exec i s = .next t →
    t.status.ckValid = s.status.ckValid ∧ t.status.hkValid = s.status.hkValid
      ∧ t.status.dictMiss = s.status.dictMiss
      ∧ (i ≠ .interp → i ≠ .bitc → t.status.recValid = s.status.recValid)

/-- A fatal error of a command that owns REC_VALID leaves it 0, the sub-3 error at issue included (R282, R297; the
model's reading, log entry 7). -/
def Obligations.FailedOwnersClearRecValid : Prop :=
  ∀ (i : Instr) (s t : State), (IsParse i ∨ i = .interp ∨ i = .bitc) → exec i s = .next t →
    t.status.err = true → t.status.recValid = false

/-- BUF bytes at and past BUF_LEN influence no command: change them in any way and the command does the same
(R21, R62). -/
def Obligations.BytesPastBufLenNeverMatter : Prop :=
  ∀ (i : Instr) (s t : State) (m : Memory), IsCommand i →
    (∀ a, a < s.op.bufLen.toNat → ({ s with buf := m } : State).bufByte a = s.bufByte a) →
      exec i s = .next t → exec i { s with buf := m } = .next { t with buf := m }

/-- INTERP reads nothing outside [OP_START..OP_END) (R182). -/
def Obligations.InterpReadsOnlyItsRange : Prop :=
  ∀ (s t : State) (m : Memory),
    (∀ a, s.op.opStart.toNat ≤ a → a < s.op.opEnd.toNat →
      ({ s with buf := m } : State).bufByte a = s.bufByte a) →
      exec .interp s = .next t → exec .interp { s with buf := m } = .next { t with buf := m }

/-- BUF_LEN > BUF_CAP: every command that reads BUF raises RangeError sub 3 and does not start; CHKSUM and CRC16 on an
empty range are the exception (R281, R285, R301). -/
def Obligations.BufLenPastCapacity : Prop :=
  ∀ (i : Instr) (s : State), s.AtRest → s.cfg.val.bufCap < s.op.bufLen.toNat →
    ((i = .interp ∨ IsParse i ∨ (i = .enca ∧ s.cfg.val.hasEncoder = true)
        ∨ ((i = .chksum ∨ i = .crc16) ∧ s.op.opStart.toNat < s.op.opEnd.toNat)) →
      ∃ t, exec i s = .next t ∧ t.err = ⟨8, 3, 0, s.op.bufLen⟩ ∧ t.status.err = true ∧ t.fsm = s.fsm
        ∧ t.ism = s.ism ∧ t.cur = s.cur ∧ t.dp = s.dp ∧ t.seq = s.seq)
    ∧ ((i = .chksum ∨ i = .crc16) → s.op.opEnd.toNat ≤ s.op.opStart.toNat →
      ∃ t, exec i s = .next t ∧ t.err = ErrRegs.zero ∧ t.status = done s.status)

/-! ### System, checksum, CRC, bit fields -/

/-- NOP writes STATUS and clears the error registers; nothing else changes (R284). -/
def Obligations.NopResult : Prop :=
  ∀ s : State, exec .nop s = .next { s with status := done s.status, err := ErrRegs.zero }

/-- A reserved opcode, in each of the five rows reserved0c to reserved80, raises BadCommand with the opcode in ERRFIELD
and changes nothing else; so does 0x0B without the encoder (R83, R302). -/
def Obligations.ReservedOpcodesRaise : Prop :=
  ∀ (s : State) (opc : Byte), s.AtRest →
    (0x0C ≤ opc.toNat ∨ (opc = 0x0B#8 ∧ s.cfg.val.hasEncoder = false)) →
      exec (decodeCmd opc) s =
        .next { s with status := failed s.status, err := ⟨7, 0, BitVec.ofNat 16 opc.toNat, 0⟩ }

/-- CHKSUM: 0 on an empty range, RangeError past BUF_LEN, else the sum modulo 256 (R110, R111). -/
def Obligations.ChksumResult : Prop :=
  ∀ s : State,
    (s.op.opEnd.toNat ≤ s.op.opStart.toNat →
      exec .chksum s = .next
        { s with status := done s.status, err := ErrRegs.zero, res := { s.res with rSum := 0#8 } })
    ∧ (RangeFits s →
      exec .chksum s = .next
        { s with
          status := done s.status
          err := ErrRegs.zero
          res := { s.res with
            rSum := BitVec.ofNat 8 (byteSum s s.op.opStart.toNat (s.op.opEnd.toNat - s.op.opStart.toNat)) } })
    ∧ (s.AtRest → s.op.opStart.toNat < s.op.opEnd.toNat → s.op.bufLen.toNat < s.op.opEnd.toNat →
        s.op.bufLen.toNat ≤ s.cfg.val.bufCap →
      ∃ x d, exec .chksum s = .next
        { s with
          status := failed s.status
          err := ⟨8, 1, 0, s.op.opEnd⟩
          res := { s.res with rSum := x }
          draws := d })

/-- The splitting law of the checksum, and its independence of the bytes' order inside the range (R112). -/
def Obligations.ChecksumSplits : Prop :=
  (∀ (s : State) (a m e : Nat), a ≤ m → m ≤ e →
    (s.checksum a e).toNat = ((s.checksum a m).toNat + (s.checksum m e).toNat) % 256)
  ∧ ∀ xs ys : List Byte, xs.Perm ys → sum8 xs = sum8 ys

/-- CRC16: the seed on an empty range, RangeError past BUF_LEN, else the CRC by the bit-serial form (R125, R126). -/
def Obligations.Crc16Result : Prop :=
  ∀ s : State,
    (s.op.opEnd.toNat ≤ s.op.opStart.toNat →
      exec .crc16 s = .next
        { s with status := done s.status, err := ErrRegs.zero, res := { s.res with rCrc := 0xFFFF#16 } })
    ∧ (RangeFits s →
      exec .crc16 s = .next
        { s with
          status := done s.status
          err := ErrRegs.zero
          res := { s.res with
            rCrc := crcSerial (wire s s.op.opStart.toNat (s.op.opEnd.toNat - s.op.opStart.toNat)) } })
    ∧ (s.AtRest → s.op.opStart.toNat < s.op.opEnd.toNat → s.op.bufLen.toNat < s.op.opEnd.toNat →
        s.op.bufLen.toNat ≤ s.cfg.val.bufCap →
      ∃ x d, exec .crc16 s = .next
        { s with
          status := failed s.status
          err := ⟨8, 1, 0, s.op.opEnd⟩
          res := { s.res with rCrc := x }
          draws := d })

/-- TBLRD: the table entry, by the generator's eight iterations (R120, R130). -/
def Obligations.TblrdResult : Prop :=
  ∀ s : State, exec .tblrd s = .next
    { s with
      status := done s.status
      err := ErrRegs.zero
      res := { s.res with rCrc := crcBit^[8] (s.op.opByte.setWidth 16) } }

/-- The listing of CRCROM, and that CRCROM is the generator's output (R121). -/
def Obligations.CrcTableListing : Prop :=
  (∀ b : Byte, crcRom b = crcBit^[8] (b.setWidth 16)) ∧
  (List.range 256).map (fun n => crcRom (BitVec.ofNat 8 n)) =
    [0x0000#16, 0x1189#16, 0x2312#16, 0x329B#16, 0x4624#16, 0x57AD#16, 0x6536#16, 0x74BF#16] ++
    [0x8C48#16, 0x9DC1#16, 0xAF5A#16, 0xBED3#16, 0xCA6C#16, 0xDBE5#16, 0xE97E#16, 0xF8F7#16] ++
    [0x1081#16, 0x0108#16, 0x3393#16, 0x221A#16, 0x56A5#16, 0x472C#16, 0x75B7#16, 0x643E#16] ++
    [0x9CC9#16, 0x8D40#16, 0xBFDB#16, 0xAE52#16, 0xDAED#16, 0xCB64#16, 0xF9FF#16, 0xE876#16] ++
    [0x2102#16, 0x308B#16, 0x0210#16, 0x1399#16, 0x6726#16, 0x76AF#16, 0x4434#16, 0x55BD#16] ++
    [0xAD4A#16, 0xBCC3#16, 0x8E58#16, 0x9FD1#16, 0xEB6E#16, 0xFAE7#16, 0xC87C#16, 0xD9F5#16] ++
    [0x3183#16, 0x200A#16, 0x1291#16, 0x0318#16, 0x77A7#16, 0x662E#16, 0x54B5#16, 0x453C#16] ++
    [0xBDCB#16, 0xAC42#16, 0x9ED9#16, 0x8F50#16, 0xFBEF#16, 0xEA66#16, 0xD8FD#16, 0xC974#16] ++
    [0x4204#16, 0x538D#16, 0x6116#16, 0x709F#16, 0x0420#16, 0x15A9#16, 0x2732#16, 0x36BB#16] ++
    [0xCE4C#16, 0xDFC5#16, 0xED5E#16, 0xFCD7#16, 0x8868#16, 0x99E1#16, 0xAB7A#16, 0xBAF3#16] ++
    [0x5285#16, 0x430C#16, 0x7197#16, 0x601E#16, 0x14A1#16, 0x0528#16, 0x37B3#16, 0x263A#16] ++
    [0xDECD#16, 0xCF44#16, 0xFDDF#16, 0xEC56#16, 0x98E9#16, 0x8960#16, 0xBBFB#16, 0xAA72#16] ++
    [0x6306#16, 0x728F#16, 0x4014#16, 0x519D#16, 0x2522#16, 0x34AB#16, 0x0630#16, 0x17B9#16] ++
    [0xEF4E#16, 0xFEC7#16, 0xCC5C#16, 0xDDD5#16, 0xA96A#16, 0xB8E3#16, 0x8A78#16, 0x9BF1#16] ++
    [0x7387#16, 0x620E#16, 0x5095#16, 0x411C#16, 0x35A3#16, 0x242A#16, 0x16B1#16, 0x0738#16] ++
    [0xFFCF#16, 0xEE46#16, 0xDCDD#16, 0xCD54#16, 0xB9EB#16, 0xA862#16, 0x9AF9#16, 0x8B70#16] ++
    [0x8408#16, 0x9581#16, 0xA71A#16, 0xB693#16, 0xC22C#16, 0xD3A5#16, 0xE13E#16, 0xF0B7#16] ++
    [0x0840#16, 0x19C9#16, 0x2B52#16, 0x3ADB#16, 0x4E64#16, 0x5FED#16, 0x6D76#16, 0x7CFF#16] ++
    [0x9489#16, 0x8500#16, 0xB79B#16, 0xA612#16, 0xD2AD#16, 0xC324#16, 0xF1BF#16, 0xE036#16] ++
    [0x18C1#16, 0x0948#16, 0x3BD3#16, 0x2A5A#16, 0x5EE5#16, 0x4F6C#16, 0x7DF7#16, 0x6C7E#16] ++
    [0xA50A#16, 0xB483#16, 0x8618#16, 0x9791#16, 0xE32E#16, 0xF2A7#16, 0xC03C#16, 0xD1B5#16] ++
    [0x2942#16, 0x38CB#16, 0x0A50#16, 0x1BD9#16, 0x6F66#16, 0x7EEF#16, 0x4C74#16, 0x5DFD#16] ++
    [0xB58B#16, 0xA402#16, 0x9699#16, 0x8710#16, 0xF3AF#16, 0xE226#16, 0xD0BD#16, 0xC134#16] ++
    [0x39C3#16, 0x284A#16, 0x1AD1#16, 0x0B58#16, 0x7FE7#16, 0x6E6E#16, 0x5CF5#16, 0x4D7C#16] ++
    [0xC60C#16, 0xD785#16, 0xE51E#16, 0xF497#16, 0x8028#16, 0x91A1#16, 0xA33A#16, 0xB2B3#16] ++
    [0x4A44#16, 0x5BCD#16, 0x6956#16, 0x78DF#16, 0x0C60#16, 0x1DE9#16, 0x2F72#16, 0x3EFB#16] ++
    [0xD68D#16, 0xC704#16, 0xF59F#16, 0xE416#16, 0x90A9#16, 0x8120#16, 0xB3BB#16, 0xA232#16] ++
    [0x5AC5#16, 0x4B4C#16, 0x79D7#16, 0x685E#16, 0x1CE1#16, 0x0D68#16, 0x3FF3#16, 0x2E7A#16] ++
    [0xE70E#16, 0xF687#16, 0xC41C#16, 0xD595#16, 0xA12A#16, 0xB0A3#16, 0x8238#16, 0x93B1#16] ++
    [0x6B46#16, 0x7ACF#16, 0x4854#16, 0x59DD#16, 0x2D62#16, 0x3CEB#16, 0x0E70#16, 0x1FF9#16] ++
    [0xF78F#16, 0xE606#16, 0xD49D#16, 0xC514#16, 0xB1AB#16, 0xA022#16, 0x92B9#16, 0x8330#16] ++
    [0x7BC7#16, 0x6A4E#16, 0x58D5#16, 0x495C#16, 0x3DE3#16, 0x2C6A#16, 0x1EF1#16, 0x0F78#16]

/-- The table update is the bit-serial step for every register value and byte (R124). -/
def Obligations.TableUpdateIsBitSerial : Prop := ∀ (c : Half) (b : Byte), crcStep c b = crcByte c b

/-- The residue: a message followed by its CRC, low byte first, leaves a constant (R128). -/
def Obligations.CrcResidue : Prop :=
  ∀ m : List Byte, m ≠ [] →
    let extended := m ++ [(crc16Of m).extractLsb' 0 8, (crc16Of m).extractLsb' 8 8]
    crc16Of extended = 0x0F47#16 ∧ crcFold crcSeed extended = 0xF0B8#16

/-- BITX: the field and its width; DictionaryError sub 1 for start > end or reserved bits (R141). -/
def Obligations.BitxResult : Prop :=
  ∀ s : State,
    (s.op.opSpec.toNat < 64 → s.op.opSpec.toNat % 8 ≤ s.op.opSpec.toNat / 8 →
      exec .bitx s = .next
        { s with
          status := done s.status
          err := ErrRegs.zero
          res := { s.res with
            rBits := BitVec.ofNat 8 (s.op.opByte.toNat / 2 ^ (s.op.opSpec.toNat % 8)
              % 2 ^ (s.op.opSpec.toNat / 8 - s.op.opSpec.toNat % 8 + 1))
            rBitw := BitVec.ofNat 4 (s.op.opSpec.toNat / 8 - s.op.opSpec.toNat % 8 + 1) } })
    ∧ (s.AtRest → (64 ≤ s.op.opSpec.toNat ∨ s.op.opSpec.toNat / 8 < s.op.opSpec.toNat % 8) →
      ∃ x y d, exec .bitx s = .next
        { s with
          status := failed s.status
          err := ⟨6, 1, 0, 0⟩
          res := { s.res with rBits := x, rBitw := y }
          draws := d })

/-- BITC: one entry with the sub-values of the range words in order; DictionaryError for an index past the ROM, a
head word that is no plain BS word, or the first range word that R146 finds wrong (R144, R145, R146). -/
def Obligations.BitcResult : Prop :=
  ∀ s : State,
    (∀ (h : Head) (rs : List RangeFields),
      (s.dromWord s.op.opPtr.toNat).map decodeDesc = some (.bs h) → h.plain = true →
      rs.length = h.size.toNat → RangesAt s s.op.opPtr.toNat rs →
        exec .bitc s = .next
          { s with
            status := { done s.status with recValid := true }
            err := ErrRegs.zero
            recs := [⟨s.op.opPtr, h.name, .bs s.op.opByte (rs.map (subOf s.op.opByte))⟩]
            res := { s.res with recCnt := 1#16, rem := 0#16 }
            comp := none })
    ∧ (s.AtRest → s.dromWord s.op.opPtr.toNat = none →
      ∃ rc rm r d, exec .bitc s = .next
        { s with
          status := { failed s.status with recValid := false }
          err := ⟨6, 3, 0, s.op.opPtr⟩
          recs := r
          res := { s.res with recCnt := rc, rem := rm }
          draws := d })
    ∧ (s.AtRest → ∀ w, s.dromWord s.op.opPtr.toNat = some w →
        (∀ h : Head, decodeDesc w = .bs h → h.plain = false) →
      ∃ rc rm r d, exec .bitc s = .next
        { s with
          status := { failed s.status with recValid := false }
          err := ⟨6, 2, BitVec.ofNat 16 w.toNat, s.op.opPtr⟩
          recs := r
          res := { s.res with recCnt := rc, rem := rm }
          draws := d })
    ∧ (s.AtRest → ∀ (h : Head) (rs : List RangeFields) (e : ErrRegs),
        (s.dromWord s.op.opPtr.toNat).map decodeDesc = some (.bs h) → h.plain = true →
        RangeFails s s.op.opPtr.toNat h.size.toNat rs e →
      ∃ off rc rm r d, OffsetOf off (s.op.opPtr.toNat + 1 + rs.length) ∧ exec .bitc s = .next
        { s with
          status := { failed s.status with recValid := false }
          err := { e with off := off }
          recs := r
          res := { s.res with recCnt := rc, rem := rm }
          draws := d })

/-- DCTL: F_CTRL, CI_* and CI_MASK from the protocol's layout; RangeError sub 2 for protocol 3 (R148, R149, R31). -/
def Obligations.DctlResult : Prop :=
  ∀ s : State,
    (∀ l : Layout,
      ((s.op.opProto = 0 ∧ l = s.cfg.val.layoutA) ∨ (s.op.opProto = 1 ∧ l = s.cfg.val.layoutB)
        ∨ (s.op.opProto = 2 ∧ l = s.cfg.val.layoutC)) →
      exec .dctl s = .next
        { s with
          status := done s.status
          err := ErrRegs.zero
          res := controlRes l s.op.opByte s.res })
    ∧ (s.AtRest → s.op.opProto = 3 →
      ∃ c d1 d2 d3 d4 d5 m d, exec .dctl s = .next
        { s with
          status := failed s.status
          err := ⟨8, 2, 0, 3⟩
          res := { s.res with
            fCtrl := c, ciDir := d1, ciPrm := d2, ciAddr := d3, ciVer := d4, ciFunc := d5, ciMask := m }
          draws := d })

/-! ### The interpreter -/

/-- INTERP on a bad range raises RangeError sub 1 before the walk: ISM, CUR, DP unchanged, REC_VALID = 0 (R161, R282,
R301). -/
def Obligations.InterpRangeError : Prop :=
  ∀ s : State, s.AtRest → s.op.bufLen.toNat ≤ s.cfg.val.bufCap →
    (s.op.opEnd.toNat < s.op.opStart.toNat ∨ s.op.bufLen.toNat < s.op.opEnd.toNat) →
      ∃ p e x rc rm r d, exec .interp s = .next
        { s with
          status := { failed s.status with recValid := false }
          err := ⟨8, 1, 0, s.op.opEnd⟩
          recs := r
          res := { s.res with pStart := p, pEnd := e, deobf := x, recCnt := rc, rem := rm }
          draws := d }

/-- Every interpretation ends: at END with I_DONE and REC_VALID, or in an error with I_ERROR; never for want of the
model's fuel (R162, R179, R180). -/
def Obligations.InterpretationAlwaysEnds : Prop :=
  ∀ (base : Half) (s : State),
    (∃ t, interpret base s = .cont t ∧ t.ism = .done ∧ t.status.recValid = true ∧ t.err = s.err
      ∧ t.status.err = s.status.err)
    ∨ (∃ t, interpret base s = .stop t ∧ t.ism = .error ∧ t.status.err = true
      ∧ 3 ≤ t.err.code.toNat ∧ t.err.code.toNat ≤ 6)

/-- INTERP on a list that is only END: REC empty, REM the whole range (R161, R166, R178). LENVAL, which U4 lets be
any value while LENVLD = 0, is left open. -/
def Obligations.InterpEmptyList : Prop :=
  ∀ s : State, RangeAllowed s → s.dromWord s.op.opPtr.toNat = some 0#32 →
    ∃ v, exec .interp s = .next
      { s with
        status := { done s.status with recValid := true }
        err := ErrRegs.zero
        recs := []
        res := { s.res with
          pStart := s.op.opStart, pEnd := s.op.opEnd, deobf := 0#8, recCnt := 0#16
          rem := BitVec.ofNat 16 (s.op.opEnd.toNat - s.op.opStart.toNat) }
        ism := .done
        cur := s.op.opStart
        dp := s.op.opPtr
        dpPast := false
        comp := none
        lenVld := false
        lenVal := v }

/-- The source's length-prefixed content, for every payload: the content consumes exactly the bytes its length field
says, or raises InsufficientDataError (R168, R169, R176). -/
def Obligations.InterpLengthPrefixed : Prop :=
  ∀ (s : State) (a b : Half), RangeAllowed s → s.op.opStart.toNat < s.op.opEnd.toNat →
    (s.dromWord s.op.opPtr.toNat).map decodeDesc = some (.bin ⟨1, 0, 1, a⟩) →
    (s.dromWord (s.op.opPtr.toNat + 1)).map decodeDesc = some (.content ⟨0, 0, 0, b⟩) →
    (s.dromWord (s.op.opPtr.toNat + 2)).map decodeDesc = some (.endList ⟨0, 0, 0, 0⟩) →
    let start := s.op.opStart.toNat
    let n := (s.bufByte start).toNat
    (start + 1 + n ≤ s.op.opEnd.toNat →
      exec .interp s = .next
        { s with
          status := { done s.status with recValid := true }
          err := ErrRegs.zero
          recs := [⟨s.op.opPtr, a, .bin 1 n⟩, ⟨s.op.opPtr + 1, b, .content (wire s (start + 1) n)⟩]
          res := { s.res with
            pStart := s.op.opStart, pEnd := s.op.opEnd, deobf := 0#8, recCnt := 2#16
            rem := BitVec.ofNat 16 (s.op.opEnd.toNat - (start + 1 + n)) }
          ism := .done
          cur := BitVec.ofNat 16 (start + 1 + n)
          dp := s.op.opPtr + 2
          dpPast := false
          comp := none
          lenVld := true
          lenVal := n })
    ∧ (s.AtRest → s.op.opEnd.toNat < start + 1 + n →
      ∃ t, exec .interp s = .next t ∧ t.err = ⟨3, 0, b, s.op.opStart + 1⟩ ∧ t.ism = .error
        ∧ t.status = { failed s.status with recValid := false } ∧ t.dp = s.op.opPtr + 1
        ∧ t.cur = s.op.opStart + 1 ∧ t.fsm = s.fsm ∧ t.seq = s.seq)

/-! ### The descriptor words -/

/-- END: no entry, CUR and DP unchanged, REM = P_END − CUR, the walk is done; a non-zero END word is malformed (R162,
R166, R178). -/
def Obligations.EndWord : Prop :=
  ∀ (s : State) (h : Head),
    (h = ⟨0, 0, 0, 0⟩ →
      exec (.endList h) s = .next
        { s with
          res := { s.res with rem := s.res.pEnd - s.cur }
          status := { s.status with recValid := true }
          ism := .done })
    ∧ (h ≠ ⟨0, 0, 0, 0⟩ → s.dpPast = false → exec (.endList h) s = .next (raised 6 2 h.name s.dp s))

/-- BIN n: one entry with the little-endian number, LENVAL and LENVLD when L = 1, CUR and DP advanced (R168, R169). -/
def Obligations.BinField : Prop :=
  ∀ (s : State) (h : Head), h.rsv = 0 → s.dpPast = false →
    s.cur.toNat + h.size.toNat ≤ s.res.pEnd.toNat →
      ∃ t, exec (.bin h) s = .next t ∧ Advanced s t 1 ∧ t =
        { s with
          recs := s.recs ++ [⟨s.dp, h.name, .bin h.size (payNum s s.cur.toNat h.size.toNat)⟩]
          res := { s.res with recCnt := s.res.recCnt + 1 }
          lenVal := if h.l = 1 then payNum s s.cur.toNat h.size.toNat else s.lenVal
          lenVld := if h.l = 1 then true else s.lenVld
          cur := BitVec.ofNat 16 (s.cur.toNat + h.size.toNat)
          ism := .fetch
          dp := t.dp
          dpPast := t.dpPast
          draws := t.draws }

/-- BS k: one byte consumed, the sub-values of its k range words in order, DP past them; the first range word that
R146 finds wrong raises its error and appends nothing (R145, R146, R170, R177). -/
def Obligations.BitCompositeField : Prop :=
  ∀ (s : State) (h : Head) (rs : List RangeFields), h.plain = true → s.dpPast = false →
    s.cur.toNat + 1 ≤ s.res.pEnd.toNat →
      (rs.length = h.size.toNat → RangesAt s s.dpIndex rs →
        ∃ t, exec (.bs h) s = .next t ∧ Advanced s t (1 + h.size.toNat) ∧ t =
          { s with
            recs := s.recs ++
              [⟨s.dp, h.name, .bs (payByte s s.cur.toNat) (rs.map (subOf (payByte s s.cur.toNat)))⟩]
            res := { s.res with recCnt := s.res.recCnt + 1 }
            cur := BitVec.ofNat 16 (s.cur.toNat + 1)
            ism := .fetch
            comp := none
            dp := t.dp
            dpPast := t.dpPast
            draws := t.draws })
      ∧ (∀ e : ErrRegs, RangeFails s s.dpIndex h.size.toNat rs e →
        ∃ off d, OffsetOf off (s.dpIndex + 1 + rs.length)
          ∧ exec (.bs h) s = .next { raised e.code e.sub e.field off s with draws := d })

/-- ASCII n: the bytes in wire order, PLACEHOLDER outside [32,126] (R172, R173). -/
def Obligations.AsciiField : Prop :=
  ∀ (s : State) (h : Head), h.plain = true → s.dpPast = false →
    s.cur.toNat + h.size.toNat ≤ s.res.pEnd.toNat →
      ∃ t, exec (.ascii h) s = .next t ∧ Advanced s t 1 ∧ t =
        { s with
          recs := s.recs ++ [⟨s.dp, h.name, .ascii ((payBytes s s.cur.toNat h.size.toNat).map fun c =>
            if 32 ≤ c.toNat ∧ c.toNat ≤ 126 then c else s.cfg.val.placeholder)⟩]
          res := { s.res with recCnt := s.res.recCnt + 1 }
          cur := BitVec.ofNat 16 (s.cur.toNat + h.size.toNat)
          ism := .fetch
          dp := t.dp
          dpPast := t.dpPast
          draws := t.draws }

/-- BCDDATE: century 20 and six nibbles, year, month, day in wire order, high nibble first (R174). -/
def Obligations.BcdDateField : Prop :=
  ∀ (s : State) (h : Head), h.plain = true → h.size = 3 → s.dpPast = false →
    s.cur.toNat + 3 ≤ s.res.pEnd.toNat →
      let digit := fun i : Nat => fun k : Nat => BitVec.ofNat 4 ((payByte s (s.cur.toNat + i)).toNat / 16 ^ k)
      ∃ t, exec (.bcdDate h) s = .next t ∧ Advanced s t 1 ∧ t =
        { s with
          recs := s.recs ++ [⟨s.dp, h.name,
            .bcdDate 20 (digit 0 1) (digit 0 0) (digit 1 1) (digit 1 0) (digit 2 1) (digit 2 0)⟩]
          res := { s.res with recCnt := s.res.recCnt + 1 }
          cur := BitVec.ofNat 16 (s.cur.toNat + 3)
          ism := .fetch
          dp := t.dp
          dpPast := t.dpPast
          draws := t.draws }

/-- BCD: four nibbles of two bytes in wire order, not validated (R175). -/
def Obligations.BcdField : Prop :=
  ∀ (s : State) (h : Head), h.plain = true → h.size = 2 → s.dpPast = false →
    s.cur.toNat + 2 ≤ s.res.pEnd.toNat →
      let digit := fun i : Nat => fun k : Nat => BitVec.ofNat 4 ((payByte s (s.cur.toNat + i)).toNat / 16 ^ k)
      ∃ t, exec (.bcd h) s = .next t ∧ Advanced s t 1 ∧ t =
        { s with
          recs := s.recs ++ [⟨s.dp, h.name, .bcd (digit 0 1) (digit 0 0) (digit 1 1) (digit 1 0)⟩]
          res := { s.res with recCnt := s.res.recCnt + 1 }
          cur := BitVec.ofNat 16 (s.cur.toNat + 2)
          ism := .fetch
          dp := t.dp
          dpPast := t.dpPast
          draws := t.draws }

/-- CONTENT: LENVAL bytes in wire order, LENVLD and LENVAL unchanged; without a length field
MissingLengthFieldError (R176). -/
def Obligations.ContentField : Prop :=
  ∀ (s : State) (h : Head), h.plain = true → h.size = 0 → s.dpPast = false →
    (s.lenVld = true → s.cur.toNat + s.lenVal ≤ s.res.pEnd.toNat →
      ∃ t, exec (.content h) s = .next t ∧ Advanced s t 1 ∧ t =
        { s with
          recs := s.recs ++ [⟨s.dp, h.name, .content (payBytes s s.cur.toNat s.lenVal)⟩]
          res := { s.res with recCnt := s.res.recCnt + 1 }
          cur := BitVec.ofNat 16 (s.cur.toNat + s.lenVal)
          ism := .fetch
          dp := t.dp
          dpPast := t.dpPast
          draws := t.draws })
    ∧ (s.lenVld = false → exec (.content h) s = .next (raised 4 0 h.name s.dp s))

/-- RANGE after a BS head appends its sub-value; malformed or with start > end it raises; where a descriptor is
expected it raises (R89, R90, R143, R146). -/
def Obligations.RangeWord : Prop :=
  ∀ (s : State) (r : RangeFields),
    (∀ c : Composite, s.comp = some c →
      (r.rsvHi = 0 → r.rsvLo = 0 → r.start.toNat ≤ r.stop.toNat →
        exec (.range r) s = .next
          { s with comp := some { c with pos := c.pos + 1, subs := c.subs ++ [subOf c.byte r] } })
      ∧ (c.pos < 65536 → (r.rsvHi ≠ 0 ∨ r.rsvLo ≠ 0) →
        exec (.range r) s = .next (raised 6 2 r.sub (BitVec.ofNat 16 c.pos) s))
      ∧ (c.pos < 65536 → r.rsvHi = 0 → r.rsvLo = 0 → r.stop.toNat < r.start.toNat →
        exec (.range r) s = .next (raised 6 1 r.sub (BitVec.ofNat 16 c.pos) s)))
    ∧ (s.comp = none → s.dpPast = false → exec (.range r) s = .next (raised 6 2 r.sub s.dp s))

/-- An unrecognised tag raises UnknownFieldTypeError: ERRSUB the tag, ERRFIELD the name, ERROFF DP (R89, R167). -/
def Obligations.UnknownTagWord : Prop :=
  ∀ (s : State) (tag : BitVec 3) (h : Head), s.dpPast = false →
    exec (.unknownTag tag h) s = .next (raised 5 (BitVec.ofNat 8 (8 + tag.toNat)) h.name s.dp s)

/-- A head word that breaks R88's "must be" column or has reserved bits raises DictionaryError sub 2 and decodes
nothing (R89, R177). -/
def Obligations.MalformedHeadWords : Prop :=
  ∀ (s : State) (h : Head) (i : Instr), s.dpPast = false → i.wf = false →
    (i = .endList h ∨ i = .bin h ∨ i = .bs h ∨ i = .ascii h ∨ i = .bcdDate h ∨ i = .bcd h ∨ i = .content h) →
      exec i s = .next (raised 6 2 h.name s.dp s)

/-- A well-formed descriptor with fewer bytes left than it needs raises InsufficientDataError at CUR and appends
nothing (R164, R177). -/
def Obligations.InsufficientDataWords : Prop :=
  ∀ (s : State) (h : Head) (i : Instr) (n : Nat), i.wf = true →
    ((i = .bin h ∧ n = h.size.toNat) ∨ (i = .bs h ∧ n = 1) ∨ (i = .ascii h ∧ n = h.size.toNat)
      ∨ (i = .bcdDate h ∧ n = 3) ∨ (i = .bcd h ∧ n = 2)
      ∨ (i = .content h ∧ s.lenVld = true ∧ n = s.lenVal)) →
    s.res.pEnd.toNat < s.cur.toNat + n → exec i s = .next (raised 3 0 h.name s.cur s)

/-! ### The frame parsers -/

/-- PARSEA on a frame without address whose key misses the dictionary: every register of the frame, the checksum's
flag, and nothing else (R97, R205 to R216, R238). -/
def Obligations.ParseaWithoutAddress : Prop :=
  ∀ s : State, FrameA s → Misses s (keyAt s 4) →
    ∃ t, exec .parsea s = .next t ∧ t =
      { s with
        status := ⟨false, true, false,
          decide ((s.bufByte (frameN s - 2)).toNat = byteSum s 3 (frameN s - 5) % 256), false, true, false⟩
        err := ErrRegs.zero
        recs := []
        addr0 := []
        addr1 := []
        fsm := .done
        cur := 10#16
        res :=
          { controlRes s.cfg.val.layoutA (s.bufByte 3) s.res with
            fLen := s.op.bufLen
            fFunc := s.bufByte 4
            fSeq := s.bufByte 5
            fIdent := BitVec.ofNat 32 (leNum s 6 4)
            pStart := 10#16
            pEnd := BitVec.ofNat 16 (frameN s - 2)
            deobf := 0#8
            rem := BitVec.ofNat 16 (frameN s - 12)
            recCnt := 0#16
            addr0Len := 0#5
            addr1Len := 0#5
            ckDecl := (s.bufByte (frameN s - 2)).setWidth 16
            ckComp := BitVec.ofNat 16 (byteSum s 3 (frameN s - 5) % 256) }
        addr0Gen := t.addr0Gen
        addr1Gen := t.addr1Gen
        draws := t.draws }

/-- PARSEA on a frame with addresses: source, then destination, each reversed, and the fields behind them (R208,
R213). -/
def Obligations.ParseaWithAddress : Prop :=
  ∀ s : State, FrameAAddr s → Misses s (keyAt s 16) →
    ∃ t, exec .parsea s = .next t
      ∧ (∀ i, i < 6 → t.addr0Byte i = s.bufByte (9 - i) ∧ t.addr1Byte i = s.bufByte (15 - i))
      ∧ t =
      { s with
        status := ⟨false, true, false,
          decide ((s.bufByte (frameN s - 2)).toNat = byteSum s 3 (frameN s - 5) % 256), false, true, false⟩
        err := ErrRegs.zero
        recs := []
        fsm := .done
        cur := 22#16
        res :=
          { controlRes s.cfg.val.layoutA (s.bufByte 3) s.res with
            fLen := s.op.bufLen
            fFunc := s.bufByte 16
            fSeq := s.bufByte 17
            fIdent := BitVec.ofNat 32 (leNum s 18 4)
            pStart := 22#16
            pEnd := BitVec.ofNat 16 (frameN s - 2)
            deobf := 0#8
            rem := BitVec.ofNat 16 (frameN s - 24)
            recCnt := 0#16
            addr0Len := 6#5
            addr1Len := 6#5
            ckDecl := (s.bufByte (frameN s - 2)).setWidth 16
            ckComp := BitVec.ofNat 16 (byteSum s 3 (frameN s - 5) % 256) }
        addr0 := t.addr0
        addr1 := t.addr1
        addr0Gen := t.addr0Gen
        addr1Gen := t.addr1Gen
        draws := t.draws }

/-- PARSEA on a frame with or without addresses, on a hit or a miss: the payload is delegated under the key
`F_FUNC ++ F_IDENT` from the state the earlier stages leave, and the command ends as its result and the end marker say
(R100, R205 to R216, R238, R242, R246, R297). -/
def Obligations.ParseaHit : Prop :=
  ∀ s : State, BodyA s →
    ParseEnds .parsea s (delegated s (some (keyAt s (funcAt s))) (payloadStateA s))
      ((s.bufByte (frameN s - 2)).setWidth 16) (BitVec.ofNat 16 (byteSum s 3 (frameN s - 5) % 256))

/-- PARSEB on a frame that misses the dictionary, whatever KEY_B is: header and frame CRC by the bit-serial form, the
address reversed, the raw header fields, and nothing else; and on a hit or a miss, with a good end marker or a wrong
one, it ends as the delegated payload says (R98, R220 to R230, R238, R242). -/
def Obligations.ParsebResult : Prop :=
  (∀ s : State, BodyB s →
    ParseEnds .parseb s (delegated s (keyOf s.cfg.val.keyB (viewB s)) (payloadStateB s))
      (BitVec.ofNat 16 (leNum s (frameN s - 3) 2)) (crcSerial (wire s 1 (frameN s - 4))))
  ∧ ∀ s : State, FrameB s → found s (keyOf s.cfg.val.keyB (viewB s)) = none →
    let al := addrLen s
    let n := frameN s
    let hk := crcSerial (wire s 1 (5 + al))
    let ck := crcSerial (wire s 1 (n - 4))
    ∃ t, exec .parseb s = .next t ∧ (∀ i, i < al → t.addr0Byte i = s.bufByte (4 + al - i)) ∧ t =
      { s with
        status := ⟨false, true, false, decide (leNum s (n - 3) 2 = ck.toNat),
          decide (leNum s (6 + al) 2 = hk.toNat), true, false⟩
        err := ErrRegs.zero
        recs := []
        addr1 := []
        fsm := .done
        cur := BitVec.ofNat 16 (8 + al)
        res :=
          { controlRes s.cfg.val.layoutB (s.bufByte 3) s.res with
            fLen := BitVec.ofNat 16 (n - 2)
            addr0Len := BitVec.ofNat 5 al
            addr1Len := 0#5
            bAtype := BitVec.ofNat 2 ((s.bufByte 4).toNat / 64)
            bLaddr := BitVec.ofNat 2 ((s.bufByte 4).toNat / 16)
            bTrail := s.bufByte (5 + al)
            hkDecl := BitVec.ofNat 16 (leNum s (6 + al) 2)
            hkComp := hk
            pStart := BitVec.ofNat 16 (8 + al)
            pEnd := BitVec.ofNat 16 (n - 3)
            deobf := 0#8
            rem := BitVec.ofNat 16 (n - 11 - al)
            recCnt := 0#16
            ckDecl := BitVec.ofNat 16 (leNum s (n - 3) 2)
            ckComp := ck }
        addr0 := t.addr0
        addr0Gen := t.addr0Gen
        addr1Gen := t.addr1Gen
        draws := t.draws }

/-- PARSEC on a frame that misses the dictionary, whatever KEY_C is: the address reversed, the function code from the
low five bits, the checksum over the bytes as stored, and nothing else; and on a hit, which reads the payload through
DEOBF = 0x33, or a miss, with a good end marker or a wrong one, it ends as the delegated payload says (R99, R232 to
R243). -/
def Obligations.ParsecResult : Prop :=
  (∀ s : State, BodyC s →
    ParseEnds .parsec s (delegated s (keyOf s.cfg.val.keyC (viewC s)) (payloadStateC s))
      ((s.bufByte (frameN s - 2)).setWidth 16) (BitVec.ofNat 16 (byteSum s 0 (frameN s - 2) % 256)))
  ∧ ∀ s : State, FrameC s → found s (keyOf s.cfg.val.keyC (viewC s)) = none →
    let n := frameN s
    ∃ t, exec .parsec s = .next t ∧ (∀ i, i < 6 → t.addr0Byte i = s.bufByte (6 - i))
      ∧ t.res.ciFunc = t.res.fFunc ∧ t =
      { s with
        status := ⟨false, true, false,
          decide ((s.bufByte (n - 2)).toNat = byteSum s 0 (n - 2) % 256), false, true, false⟩
        err := ErrRegs.zero
        recs := []
        addr1 := []
        fsm := .done
        cur := 10#16
        res :=
          { controlRes s.cfg.val.layoutC (s.bufByte 8) s.res with
            fLen := BitVec.ofNat 16 (s.bufByte 9).toNat
            fFunc := BitVec.ofNat 8 ((s.bufByte 8).toNat % 32)
            addr0Len := 6#5
            addr1Len := 0#5
            pStart := 10#16
            pEnd := BitVec.ofNat 16 (n - 2)
            deobf := 0x33#8
            rem := BitVec.ofNat 16 (n - 12)
            recCnt := 0#16
            ckDecl := (s.bufByte (n - 2)).setWidth 16
            ckComp := BitVec.ofNat 16 (byteSum s 0 (n - 2) % 256) }
        addr0 := t.addr0
        addr0Gen := t.addr0Gen
        addr1Gen := t.addr1Gen
        draws := t.draws }

/-- The smallest Protocol-A frames, and which field a shorter one is reported to lack (R217). -/
def Obligations.SmallestFramesA : Prop :=
  ∀ s : State, frameN s ≤ s.cfg.val.bufCap →
    (∀ t, exec .parsea s = .next t → t.status.err = false →
      12 ≤ frameN s ∧ (ctlField (s.bufByte 3) s.cfg.val.layoutA.addr ≠ 0#8 → 24 ≤ frameN s))
    ∧ (s.bufByte 0 = 0x68#8 → leNum s 1 2 = frameN s → 3 ≤ frameN s → frameN s < 12 →
      (5 < frameN s → ctlField (s.bufByte 3) s.cfg.val.layoutA.addr = 0#8) →
      ∃ t, exec .parsea s = .next t ∧ t.fsm = .error ∧ t.status.err = true ∧ t.err =
        if frameN s ≤ 5 then ⟨2, 4, 3, 3⟩
        else if frameN s = 6 then ⟨2, 4, 9, 4⟩
        else if frameN s = 7 then ⟨2, 4, 10, 5⟩
        else ⟨2, 4, 11, 6⟩)

/-- The first failing check of the stages before the lookup, for every field of every protocol, is the PARSE command's
error: all four parse flags are then 0, FSM is ERROR, CUR, DP and ISM are unchanged, and so is everything the command
does not write. An empty buffer and a wrong start marker come first (R201 to R211, R221 to R227, R233 to R237, R246,
R296, R297). -/
def Obligations.ParseStartErrors : Prop :=
  ∀ (i : Instr) (s : State), frameN s ≤ s.cfg.val.bufCap →
    (∀ e : ErrRegs,
      ((i = .parsea ∧ headFaultA s = some e) ∨ (i = .parseb ∧ headFaultB s = some e)
        ∨ (i = .parsec ∧ headFaultC s = some e)) →
      ∃ t, exec i s = .next t ∧ t.status = ⟨false, true, true, false, false, false, false⟩ ∧ t.fsm = .error
        ∧ t.err = e ∧ t.cur = s.cur ∧ t.dp = s.dp ∧ (s.AtRest → t.ism = s.ism) ∧ FailedKeeps i s t)
    ∧ (IsParse i → frameN s = 0 ∨ s.bufByte 0 ≠ 0x68#8 →
      ∃ t, exec i s = .next t ∧ t.err = if frameN s = 0 then ⟨2, 4, 1, 0⟩ else ⟨2, 1, 1, 0⟩)

/-! ### The encoder -/

/-- ENCA: the frame byte by byte, TX_LEN and SEQ; its two errors leave SEQ unchanged (R261, R262, R264). -/
def Obligations.EncaResult : Prop :=
  ∀ s : State, s.cfg.val.hasEncoder = true → s.op.bufLen.toNat ≤ s.cfg.val.bufCap →
    let p := s.op.opEnd.toNat - s.op.opStart.toNat
    (RangeAllowed s → 12 + p ≤ s.cfg.val.txCap →
      ∃ t, exec .enca s = .next t
        ∧ t =
          { s with
            status := done s.status
            err := ErrRegs.zero
            seq := s.seq + 1#8
            res := { s.res with txLen := BitVec.ofNat 16 (12 + p) }
            tx := t.tx
            txGen := t.txGen
            draws := t.draws }
        ∧ t.txByte 0 = 0x68#8 ∧ t.txByte 1 = BitVec.ofNat 8 ((12 + p) % 256)
        ∧ t.txByte 2 = BitVec.ofNat 8 ((12 + p) / 256)
        ∧ t.txByte 3 = (if s.op.opDir = 0 then s.cfg.val.ctrlEnc0 else s.cfg.val.ctrlEnc1)
        ∧ t.txByte 4 = s.op.opFunc ∧ t.txByte 5 = s.seq
        ∧ (∀ i, i < 4 → t.txByte (6 + i) = BitVec.ofNat 8 (s.op.opIdent.toNat / 256 ^ i))
        ∧ (∀ i, i < p → t.txByte (10 + i) = s.bufByte (s.op.opStart.toNat + i))
        ∧ t.txByte (10 + p) =
            BitVec.ofNat 8 ((List.range (7 + p)).map fun i => (t.txByte (3 + i)).toNat).sum
        ∧ t.txByte (11 + p) = 0x16#8)
    ∧ (s.AtRest → (s.op.opEnd.toNat < s.op.opStart.toNat ∨ s.op.bufLen.toNat < s.op.opEnd.toNat) →
      ∃ x m g d, exec .enca s = .next
        { s with
          status := failed s.status
          err := ⟨8, 1, 0, s.op.opEnd⟩
          res := { s.res with txLen := x }
          tx := m
          txGen := g
          draws := d })
    ∧ (s.AtRest → RangeAllowed s → s.cfg.val.txCap < 12 + p →
      ∃ x m g d, exec .enca s = .next
        { s with
          status := failed s.status
          err := ⟨9, 0, 0, BitVec.ofNat 16 ((12 + p) % 65536)⟩
          res := { s.res with txLen := x }
          tx := m
          txGen := g
          draws := d })

/-- What ENCA encodes, PARSEA parses back: after the frame is copied to BUF, PARSEA ends checksum-valid with every input
of ENCA, unless the payload's interpretation raises, which a dictionary miss rules out (R266). -/
def Obligations.EncodeThenParse : Prop :=
  ∀ s t u : State, s.cfg.val.hasEncoder = true → exec .enca s = .next t → t.status.err = false →
    u.cfg = s.cfg → u.op.bufLen = t.res.txLen → u.op.bufLen.toNat ≤ u.cfg.val.bufCap →
    (∀ i, i < t.res.txLen.toNat → u.bufByte i = t.txByte i) →
      ∃ v, exec .parsea u = .next v
        ∧ (Misses s (s.op.opFunc.toNat * 2 ^ 32 + s.op.opIdent.toNat) → v.status.err = false)
        ∧ ((v.status.err = true ∧ 3 ≤ v.err.code.toNat ∧ v.err.code.toNat ≤ 6)
          ∨ (v.fsm = .done ∧ v.status.err = false ∧ v.status.ckValid = true ∧ v.res.fLen = t.res.txLen
            ∧ v.res.fCtrl = (if s.op.opDir = 0 then s.cfg.val.ctrlEnc0 else s.cfg.val.ctrlEnc1)
            ∧ v.res.addr0Len = 0 ∧ v.res.addr1Len = 0 ∧ v.res.fFunc = s.op.opFunc ∧ v.res.fSeq = s.seq
            ∧ v.res.fIdent = s.op.opIdent
            ∧ v.res.pStart.toNat + (s.op.opEnd.toNat - s.op.opStart.toNat) = v.res.pEnd.toNat
            ∧ ∀ i, i < s.op.opEnd.toNat - s.op.opStart.toNat →
                v.bufByte (v.res.pStart.toNat + i) = s.bufByte (s.op.opStart.toNat + i)))

end
end

