-- ==== Sys2Proof/Laws/Memory.lean ====
section
/-! SUPPORT. Byte memories: read after write, and the canonical form that every operation keeps; ranges of bytes,
their lengths, splitting and numbers. -/

namespace Sys2Proof.Machine

theorem Memory.get?_set_same (m : Memory) (a : Nat) (b : Byte) :
    Memory.get? (Memory.set m a b) a = some b := by
  induction m with
  | nil => simp [Memory.set, Memory.get?]
  | cons cell rest ih =>
    obtain ⟨k, v⟩ := cell
    simp only [Memory.set]
    split
    · simp [Memory.get?]
    · split
      · simp [Memory.get?, *]
      · simp [Memory.get?, *]

theorem Memory.get?_set_other (m : Memory) (a c : Nat) (b : Byte) (h : c ≠ a) :
    Memory.get? (Memory.set m a b) c = Memory.get? m c := by
  induction m with
  | nil => simp [Memory.set, Memory.get?, h]
  | cons cell rest ih =>
    obtain ⟨k, v⟩ := cell
    simp only [Memory.set]
    split
    · simp [Memory.get?, h]
    · split
      · subst_vars; simp [Memory.get?, h]
      · simp only [Memory.get?, ih]

/-- In a canonical memory, what stands below the head's address is not listed. -/
theorem Memory.get?_of_lt_head {k : Nat} {v : Byte} {rest : Memory} (h : Memory.wf ((k, v) :: rest) = true)
    {a : Nat} (ha : a ≤ k) : Memory.get? rest a = none := by
  induction rest generalizing k v with
  | nil => rfl
  | cons cell rest ih =>
    obtain ⟨k', v'⟩ := cell
    simp only [Memory.wf, Bool.and_eq_true, decide_eq_true_eq] at h
    have hne : a ≠ k' := by omega
    simp only [Memory.get?, hne, if_false]
    exact ih h.2 (by omega)

theorem Memory.wf_tail {cell : Host.Cell} {rest : Memory} (h : Memory.wf (cell :: rest) = true) :
    Memory.wf rest = true := by
  cases rest with
  | nil => rfl
  | cons c r => simp only [Memory.wf, Bool.and_eq_true] at h; exact h.2

theorem Memory.wf_cons {a : Nat} {b : Byte} {rest : Memory} (hr : Memory.wf rest = true)
    (h : ∀ cell ∈ rest.head?, a < cell.1) : Memory.wf ((a, b) :: rest) = true := by
  cases rest with
  | nil => rfl
  | cons c r =>
    simp only [Memory.wf, Bool.and_eq_true, decide_eq_true_eq]
    exact ⟨h c (by simp), hr⟩

/-- A write keeps the canonical form. -/
theorem Memory.wf_set (m : Memory) (a : Nat) (b : Byte) (h : Memory.wf m = true) :
    Memory.wf (Memory.set m a b) = true := by
  induction m with
  | nil => rfl
  | cons cell rest ih =>
    obtain ⟨k, v⟩ := cell
    have ht := ih (Memory.wf_tail h)
    simp only [Memory.set]
    split
    · exact Memory.wf_cons h (by simp; omega)
    · split
      · cases rest with
        | nil => rfl
        | cons c r => simpa [Memory.wf] using h
      · refine Memory.wf_cons ht ?_
        cases rest with
        | nil => simp only [Memory.set, List.head?_cons, Option.mem_some_iff]; rintro _ rfl; simp; omega
        | cons c r =>
          obtain ⟨k', v'⟩ := c
          simp only [Memory.wf, Bool.and_eq_true, decide_eq_true_eq] at h
          simp only [Memory.set]
          split
          · simp; omega
          · split <;> simp <;> omega

/-- A write below the capacity keeps everything below it. -/
theorem Memory.below_set (m : Memory) (a : Nat) (b : Byte) (cap : Nat) (h : Memory.below m cap = true)
    (ha : a < cap) : Memory.below (Memory.set m a b) cap = true := by
  induction m with
  | nil => simp [Memory.set, Memory.below, ha]
  | cons cell rest ih =>
    obtain ⟨k, v⟩ := cell
    simp only [Memory.below, List.all_cons, Bool.and_eq_true, decide_eq_true_eq] at h ih
    simp only [Memory.set]
    split
    · simp only [Memory.below, List.all_cons, Bool.and_eq_true, decide_eq_true_eq]; exact ⟨ha, h⟩
    · split
      · simp only [Memory.below, List.all_cons, Bool.and_eq_true, decide_eq_true_eq]; exact h
      · simp only [Memory.below, List.all_cons, Bool.and_eq_true, decide_eq_true_eq]
        exact ⟨h.1, ih h.2⟩

/-- A canonical memory is determined by its reads: equal memories are equal data. -/
theorem Memory.ext_of_wf {m n : Memory} (hm : Memory.wf m = true) (hn : Memory.wf n = true)
    (h : ∀ a, Memory.get? m a = Memory.get? n a) : m = n := by
  induction m generalizing n with
  | nil =>
    cases n with
    | nil => rfl
    | cons c r => obtain ⟨k, v⟩ := c; have := h k; simp [Memory.get?] at this
  | cons c r ih =>
    obtain ⟨k, v⟩ := c
    cases n with
    | nil => have := h k; simp [Memory.get?] at this
    | cons c' r' =>
      obtain ⟨k', v'⟩ := c'
      have hk : k = k' := by
        rcases Nat.lt_trichotomy k k' with hlt | heq | hgt
        · have h1 := h k
          rw [show Memory.get? ((k', v') :: r') k = none from by
            simp [Memory.get?, Nat.ne_of_lt hlt, Memory.get?_of_lt_head hn (Nat.le_of_lt hlt)]] at h1
          simp [Memory.get?] at h1
        · exact heq
        · have h1 := h k'
          rw [show Memory.get? ((k, v) :: r) k' = none from by
            simp [Memory.get?, Nat.ne_of_lt hgt, Memory.get?_of_lt_head hm (Nat.le_of_lt hgt)]] at h1
          simp [Memory.get?] at h1
      subst hk
      have hv : v = v' := by simpa [Memory.get?] using h k
      subst hv
      congr 1
      refine ih (Memory.wf_tail hm) (Memory.wf_tail hn) fun a => ?_
      by_cases ha : a = k
      · subst ha
        rw [Memory.get?_of_lt_head hm (Nat.le_refl _), Memory.get?_of_lt_head hn (Nat.le_refl _)]
      · simpa [Memory.get?, ha] using h a

theorem Memory.get?_ofBytes (a : Nat) (bs : List Byte) (i : Nat) :
    Memory.get? (Memory.ofBytes a bs) i = if a ≤ i then bs[i - a]? else none := by
  induction bs generalizing a with
  | nil => simp [Memory.ofBytes, Memory.get?]
  | cons b rest ih =>
    simp only [Memory.ofBytes, Memory.get?, ih]
    rcases Nat.lt_trichotomy i a with h | h | h
    · simp [Nat.ne_of_lt h, Nat.not_le_of_lt h, show ¬ a + 1 ≤ i by omega]
    · subst h; simp
    · have h1 : i ≠ a := by omega
      have h2 : a + 1 ≤ i := by omega
      have h3 : i - a = (i - (a + 1)) + 1 := by omega
      simp [h1, h2, show a ≤ i by omega, h3]

theorem Memory.head?_ofBytes (a : Nat) (bs : List Byte) :
    ∀ cell ∈ (Memory.ofBytes a bs).head?, cell.1 = a := by
  cases bs <;> simp [Memory.ofBytes]

theorem Memory.wf_ofBytes (a : Nat) (bs : List Byte) : Memory.wf (Memory.ofBytes a bs) = true := by
  induction bs generalizing a with
  | nil => rfl
  | cons b rest ih =>
    refine Memory.wf_cons (ih (a + 1)) fun cell hc => ?_
    have := Memory.head?_ofBytes (a + 1) rest cell hc
    omega

theorem Memory.below_ofBytes (a : Nat) (bs : List Byte) (cap : Nat) (h : a + bs.length ≤ cap) :
    Memory.below (Memory.ofBytes a bs) cap = true := by
  induction bs generalizing a with
  | nil => rfl
  | cons b rest ih =>
    simp only [List.length_cons] at h
    simp only [Memory.ofBytes, Memory.below, List.all_cons, Bool.and_eq_true, decide_eq_true_eq]
    exact ⟨by omega, ih (a + 1) (by omega)⟩

/-! ### Ranges of bytes -/

@[simp] theorem bufRange_length (s : State) (a n : Nat) : (s.bufRange a n).length = n := by
  induction n generalizing a with
  | zero => rfl
  | succ n ih => simp [State.bufRange, ih]

theorem bufRange_append (s : State) (a m n : Nat) :
    s.bufRange a (m + n) = s.bufRange a m ++ s.bufRange (a + m) n := by
  induction m generalizing a with
  | zero => simp [State.bufRange]
  | succ m ih =>
    rw [show m + 1 + n = (m + n) + 1 by omega, State.bufRange, State.bufRange, ih,
      show a + 1 + m = a + (m + 1) by omega, List.cons_append]

theorem bufRange_getElem (s : State) (a n i : Nat) (h : i < (s.bufRange a n).length) :
    (s.bufRange a n)[i] = s.bufByte (a + i) := by
  induction n generalizing a i with
  | zero => simp [State.bufRange] at h
  | succ n ih =>
    cases i with
    | zero => simp [State.bufRange]
    | succ i => simp [State.bufRange, ih, show a + 1 + i = a + (i + 1) by omega]

/-- Two states whose BUF reads agree on a range have the same range. -/
theorem bufRange_congr {s t : State} {a n : Nat} (h : ∀ i, a ≤ i → i < a + n → s.bufByte i = t.bufByte i) :
    s.bufRange a n = t.bufRange a n := by
  induction n generalizing a with
  | zero => rfl
  | succ n ih =>
    simp only [State.bufRange]
    rw [h a (Nat.le_refl _) (by omega), ih fun i h1 h2 => h i (by omega) (by omega)]

theorem payRange_eq (s : State) (a n : Nat) :
    s.payRange a n = (s.bufRange a n).map fun b => b - s.res.deobf := by
  induction n generalizing a with
  | zero => rfl
  | succ n ih => simp [State.payRange, State.bufRange, State.pay, ih]

@[simp] theorem payRange_length (s : State) (a n : Nat) : (s.payRange a n).length = n := by
  simp [payRange_eq]

theorem sumFrom_append (acc : Byte) (xs ys : List Byte) :
    sumFrom acc (xs ++ ys) = sumFrom (sumFrom acc xs) ys := by
  induction xs generalizing acc with
  | nil => rfl
  | cons x xs ih => simp [sumFrom, ih]

theorem sumFrom_eq_add (acc : Byte) (xs : List Byte) : sumFrom acc xs = acc + sum8 xs := by
  unfold sum8
  induction xs generalizing acc with
  | nil => simp [sumFrom]
  | cons x xs ih => simp only [sumFrom]; rw [ih (acc + x), ih (0#8 + x)]; simp [BitVec.add_assoc]

theorem crcFold_append (c : Half) (xs ys : List Byte) :
    crcFold c (xs ++ ys) = crcFold (crcFold c xs) ys := by
  induction xs generalizing c with
  | nil => rfl
  | cons x xs ih => simp [crcFold, ih]

theorem le_lt (bs : List Byte) : le bs < 256 ^ bs.length := by
  induction bs with
  | nil => simp [le]
  | cons b rest ih =>
    have := b.isLt
    simp only [le, List.length_cons, Nat.pow_succ]
    omega

end Sys2Proof.Machine
end

