-- ==== Sys2Proof/Laws/State.lean ====
section
/-! SUPPORT. The named updates of the state, field by field: each lemma holds by definition, so that a proof about
an operation need not unfold a record update. -/

namespace Sys2Proof.Machine

@[simp] theorem issueBegin_cfg (s : State) : (issueBegin s).cfg = s.cfg := rfl
@[simp] theorem issueBegin_buf (s : State) : (issueBegin s).buf = s.buf := rfl
@[simp] theorem issueBegin_tx (s : State) : (issueBegin s).tx = s.tx := rfl
@[simp] theorem issueBegin_recs (s : State) : (issueBegin s).recs = s.recs := rfl
@[simp] theorem issueBegin_addr0 (s : State) : (issueBegin s).addr0 = s.addr0 := rfl
@[simp] theorem issueBegin_addr1 (s : State) : (issueBegin s).addr1 = s.addr1 := rfl
@[simp] theorem issueBegin_status (s : State) : (issueBegin s).status = s.status.issued := rfl
@[simp] theorem issueBegin_err (s : State) : (issueBegin s).err = ErrRegs.zero := rfl
@[simp] theorem issueBegin_op (s : State) : (issueBegin s).op = s.op := rfl
@[simp] theorem issueBegin_seq (s : State) : (issueBegin s).seq = s.seq := rfl
@[simp] theorem issueBegin_res (s : State) : (issueBegin s).res = s.res := rfl
@[simp] theorem issueBegin_fsm (s : State) : (issueBegin s).fsm = s.fsm := rfl
@[simp] theorem issueBegin_ism (s : State) : (issueBegin s).ism = s.ism := rfl
@[simp] theorem issueBegin_cur (s : State) : (issueBegin s).cur = s.cur := rfl
@[simp] theorem issueBegin_dp (s : State) : (issueBegin s).dp = s.dp := rfl
@[simp] theorem issueBegin_lenVld (s : State) : (issueBegin s).lenVld = s.lenVld := rfl
@[simp] theorem issueBegin_lenVal (s : State) : (issueBegin s).lenVal = s.lenVal := rfl
@[simp] theorem issueBegin_dpPast (s : State) : (issueBegin s).dpPast = s.dpPast := rfl
@[simp] theorem issueBegin_comp (s : State) : (issueBegin s).comp = s.comp := rfl
@[simp] theorem issueBegin_draws (s : State) : (issueBegin s).draws = s.draws := rfl
@[simp] theorem issueBegin_txGen (s : State) : (issueBegin s).txGen = s.txGen := rfl
@[simp] theorem issueBegin_addr0Gen (s : State) : (issueBegin s).addr0Gen = s.addr0Gen := rfl
@[simp] theorem issueBegin_addr1Gen (s : State) : (issueBegin s).addr1Gen = s.addr1Gen := rfl
@[simp] theorem issueBegin_inbox (s : State) : (issueBegin s).inbox = s.inbox := rfl
@[simp] theorem issueBegin_reply (s : State) : (issueBegin s).reply = s.reply := rfl

@[simp] theorem issueEnd_cfg (s : State) : (issueEnd s).cfg = s.cfg := rfl
@[simp] theorem issueEnd_buf (s : State) : (issueEnd s).buf = s.buf := rfl
@[simp] theorem issueEnd_tx (s : State) : (issueEnd s).tx = s.tx := rfl
@[simp] theorem issueEnd_recs (s : State) : (issueEnd s).recs = s.recs := rfl
@[simp] theorem issueEnd_addr0 (s : State) : (issueEnd s).addr0 = s.addr0 := rfl
@[simp] theorem issueEnd_addr1 (s : State) : (issueEnd s).addr1 = s.addr1 := rfl
@[simp] theorem issueEnd_status (s : State) : (issueEnd s).status = s.status.ended := rfl
@[simp] theorem issueEnd_err (s : State) : (issueEnd s).err = s.err := rfl
@[simp] theorem issueEnd_op (s : State) : (issueEnd s).op = s.op := rfl
@[simp] theorem issueEnd_seq (s : State) : (issueEnd s).seq = s.seq := rfl
@[simp] theorem issueEnd_res (s : State) : (issueEnd s).res = s.res := rfl
@[simp] theorem issueEnd_fsm (s : State) : (issueEnd s).fsm = s.fsm := rfl
@[simp] theorem issueEnd_ism (s : State) : (issueEnd s).ism = s.ism := rfl
@[simp] theorem issueEnd_cur (s : State) : (issueEnd s).cur = s.cur := rfl
@[simp] theorem issueEnd_dp (s : State) : (issueEnd s).dp = s.dp := rfl
@[simp] theorem issueEnd_lenVld (s : State) : (issueEnd s).lenVld = s.lenVld := rfl
@[simp] theorem issueEnd_lenVal (s : State) : (issueEnd s).lenVal = s.lenVal := rfl
@[simp] theorem issueEnd_dpPast (s : State) : (issueEnd s).dpPast = s.dpPast := rfl
@[simp] theorem issueEnd_comp (s : State) : (issueEnd s).comp = s.comp := rfl
@[simp] theorem issueEnd_draws (s : State) : (issueEnd s).draws = s.draws := rfl
@[simp] theorem issueEnd_txGen (s : State) : (issueEnd s).txGen = s.txGen := rfl
@[simp] theorem issueEnd_addr0Gen (s : State) : (issueEnd s).addr0Gen = s.addr0Gen := rfl
@[simp] theorem issueEnd_addr1Gen (s : State) : (issueEnd s).addr1Gen = s.addr1Gen := rfl
@[simp] theorem issueEnd_inbox (s : State) : (issueEnd s).inbox = s.inbox := rfl
@[simp] theorem issueEnd_reply (s : State) : (issueEnd s).reply = s.reply := rfl

@[simp] theorem raise_cfg (x : ErrName) (b : Byte) (f : Half) (o : Nat) (s : State) :
    (raise x b f o s).cfg = s.cfg := rfl
@[simp] theorem raise_buf (x : ErrName) (b : Byte) (f : Half) (o : Nat) (s : State) :
    (raise x b f o s).buf = s.buf := rfl
@[simp] theorem raise_tx (x : ErrName) (b : Byte) (f : Half) (o : Nat) (s : State) :
    (raise x b f o s).tx = s.tx := rfl
@[simp] theorem raise_recs (x : ErrName) (b : Byte) (f : Half) (o : Nat) (s : State) :
    (raise x b f o s).recs = s.recs := rfl
@[simp] theorem raise_addr0 (x : ErrName) (b : Byte) (f : Half) (o : Nat) (s : State) :
    (raise x b f o s).addr0 = s.addr0 := rfl
@[simp] theorem raise_addr1 (x : ErrName) (b : Byte) (f : Half) (o : Nat) (s : State) :
    (raise x b f o s).addr1 = s.addr1 := rfl
@[simp] theorem raise_status (x : ErrName) (b : Byte) (f : Half) (o : Nat) (s : State) :
    (raise x b f o s).status = s.status.raised := rfl
@[simp] theorem raise_err (x : ErrName) (b : Byte) (f : Half) (o : Nat) (s : State) :
    (raise x b f o s).err = ⟨x.code, b, f, s.off16 o⟩ := rfl
@[simp] theorem raise_op (x : ErrName) (b : Byte) (f : Half) (o : Nat) (s : State) :
    (raise x b f o s).op = s.op := rfl
@[simp] theorem raise_seq (x : ErrName) (b : Byte) (f : Half) (o : Nat) (s : State) :
    (raise x b f o s).seq = s.seq := rfl
@[simp] theorem raise_res (x : ErrName) (b : Byte) (f : Half) (o : Nat) (s : State) :
    (raise x b f o s).res = s.res := rfl
@[simp] theorem raise_fsm (x : ErrName) (b : Byte) (f : Half) (o : Nat) (s : State) :
    (raise x b f o s).fsm = if s.parsing then .error else s.fsm := rfl
@[simp] theorem raise_ism (x : ErrName) (b : Byte) (f : Half) (o : Nat) (s : State) :
    (raise x b f o s).ism = if s.walking then .error else s.ism := rfl
@[simp] theorem raise_cur (x : ErrName) (b : Byte) (f : Half) (o : Nat) (s : State) :
    (raise x b f o s).cur = s.cur := rfl
@[simp] theorem raise_dp (x : ErrName) (b : Byte) (f : Half) (o : Nat) (s : State) :
    (raise x b f o s).dp = s.dp := rfl
@[simp] theorem raise_lenVld (x : ErrName) (b : Byte) (f : Half) (o : Nat) (s : State) :
    (raise x b f o s).lenVld = s.lenVld := rfl
@[simp] theorem raise_lenVal (x : ErrName) (b : Byte) (f : Half) (o : Nat) (s : State) :
    (raise x b f o s).lenVal = s.lenVal := rfl
@[simp] theorem raise_dpPast (x : ErrName) (b : Byte) (f : Half) (o : Nat) (s : State) :
    (raise x b f o s).dpPast = s.dpPast := rfl
@[simp] theorem raise_comp (x : ErrName) (b : Byte) (f : Half) (o : Nat) (s : State) :
    (raise x b f o s).comp = none := rfl
@[simp] theorem raise_draws (x : ErrName) (b : Byte) (f : Half) (o : Nat) (s : State) :
    (raise x b f o s).draws = if o < 65536 then s.draws else s.draws + 1 := rfl
@[simp] theorem raise_txGen (x : ErrName) (b : Byte) (f : Half) (o : Nat) (s : State) :
    (raise x b f o s).txGen = s.txGen := rfl
@[simp] theorem raise_addr0Gen (x : ErrName) (b : Byte) (f : Half) (o : Nat) (s : State) :
    (raise x b f o s).addr0Gen = s.addr0Gen := rfl
@[simp] theorem raise_addr1Gen (x : ErrName) (b : Byte) (f : Half) (o : Nat) (s : State) :
    (raise x b f o s).addr1Gen = s.addr1Gen := rfl
@[simp] theorem raise_inbox (x : ErrName) (b : Byte) (f : Half) (o : Nat) (s : State) :
    (raise x b f o s).inbox = s.inbox := rfl
@[simp] theorem raise_reply (x : ErrName) (b : Byte) (f : Half) (o : Nat) (s : State) :
    (raise x b f o s).reply = s.reply := rfl

@[simp] theorem bump_cfg (s : State) : (s.bump).cfg = s.cfg := rfl
@[simp] theorem bump_buf (s : State) : (s.bump).buf = s.buf := rfl
@[simp] theorem bump_tx (s : State) : (s.bump).tx = s.tx := rfl
@[simp] theorem bump_recs (s : State) : (s.bump).recs = s.recs := rfl
@[simp] theorem bump_addr0 (s : State) : (s.bump).addr0 = s.addr0 := rfl
@[simp] theorem bump_addr1 (s : State) : (s.bump).addr1 = s.addr1 := rfl
@[simp] theorem bump_status (s : State) : (s.bump).status = s.status := rfl
@[simp] theorem bump_err (s : State) : (s.bump).err = s.err := rfl
@[simp] theorem bump_op (s : State) : (s.bump).op = s.op := rfl
@[simp] theorem bump_seq (s : State) : (s.bump).seq = s.seq := rfl
@[simp] theorem bump_res (s : State) : (s.bump).res = s.res := rfl
@[simp] theorem bump_fsm (s : State) : (s.bump).fsm = s.fsm := rfl
@[simp] theorem bump_ism (s : State) : (s.bump).ism = s.ism := rfl
@[simp] theorem bump_cur (s : State) : (s.bump).cur = s.cur := rfl
@[simp] theorem bump_dp (s : State) : (s.bump).dp = s.dp := rfl
@[simp] theorem bump_lenVld (s : State) : (s.bump).lenVld = s.lenVld := rfl
@[simp] theorem bump_lenVal (s : State) : (s.bump).lenVal = s.lenVal := rfl
@[simp] theorem bump_dpPast (s : State) : (s.bump).dpPast = s.dpPast := rfl
@[simp] theorem bump_comp (s : State) : (s.bump).comp = s.comp := rfl
@[simp] theorem bump_draws (s : State) : (s.bump).draws = s.draws + 1 := rfl
@[simp] theorem bump_txGen (s : State) : (s.bump).txGen = s.txGen := rfl
@[simp] theorem bump_addr0Gen (s : State) : (s.bump).addr0Gen = s.addr0Gen := rfl
@[simp] theorem bump_addr1Gen (s : State) : (s.bump).addr1Gen = s.addr1Gen := rfl
@[simp] theorem bump_inbox (s : State) : (s.bump).inbox = s.inbox := rfl
@[simp] theorem bump_reply (s : State) : (s.bump).reply = s.reply := rfl

@[simp] theorem emit_cfg (n : Half) (v : RecValue) (s : State) : (emit n v s).cfg = s.cfg := rfl
@[simp] theorem emit_buf (n : Half) (v : RecValue) (s : State) : (emit n v s).buf = s.buf := rfl
@[simp] theorem emit_tx (n : Half) (v : RecValue) (s : State) : (emit n v s).tx = s.tx := rfl
@[simp] theorem emit_recs (n : Half) (v : RecValue) (s : State) : (emit n v s).recs = s.recs ++ [⟨s.dp, n, v⟩] := rfl
@[simp] theorem emit_addr0 (n : Half) (v : RecValue) (s : State) : (emit n v s).addr0 = s.addr0 := rfl
@[simp] theorem emit_addr1 (n : Half) (v : RecValue) (s : State) : (emit n v s).addr1 = s.addr1 := rfl
@[simp] theorem emit_status (n : Half) (v : RecValue) (s : State) : (emit n v s).status = s.status := rfl
@[simp] theorem emit_err (n : Half) (v : RecValue) (s : State) : (emit n v s).err = s.err := rfl
@[simp] theorem emit_op (n : Half) (v : RecValue) (s : State) : (emit n v s).op = s.op := rfl
@[simp] theorem emit_seq (n : Half) (v : RecValue) (s : State) : (emit n v s).seq = s.seq := rfl
@[simp] theorem emit_res (n : Half) (v : RecValue) (s : State) :
    (emit n v s).res = { s.res with recCnt := s.res.recCnt + 1#16 } := rfl
@[simp] theorem emit_fsm (n : Half) (v : RecValue) (s : State) : (emit n v s).fsm = s.fsm := rfl
@[simp] theorem emit_ism (n : Half) (v : RecValue) (s : State) : (emit n v s).ism = s.ism := rfl
@[simp] theorem emit_cur (n : Half) (v : RecValue) (s : State) : (emit n v s).cur = s.cur := rfl
@[simp] theorem emit_dp (n : Half) (v : RecValue) (s : State) : (emit n v s).dp = s.dp := rfl
@[simp] theorem emit_lenVld (n : Half) (v : RecValue) (s : State) : (emit n v s).lenVld = s.lenVld := rfl
@[simp] theorem emit_lenVal (n : Half) (v : RecValue) (s : State) : (emit n v s).lenVal = s.lenVal := rfl
@[simp] theorem emit_dpPast (n : Half) (v : RecValue) (s : State) : (emit n v s).dpPast = s.dpPast := rfl
@[simp] theorem emit_comp (n : Half) (v : RecValue) (s : State) : (emit n v s).comp = s.comp := rfl
@[simp] theorem emit_draws (n : Half) (v : RecValue) (s : State) : (emit n v s).draws = s.draws := rfl
@[simp] theorem emit_txGen (n : Half) (v : RecValue) (s : State) : (emit n v s).txGen = s.txGen := rfl
@[simp] theorem emit_addr0Gen (n : Half) (v : RecValue) (s : State) : (emit n v s).addr0Gen = s.addr0Gen := rfl
@[simp] theorem emit_addr1Gen (n : Half) (v : RecValue) (s : State) : (emit n v s).addr1Gen = s.addr1Gen := rfl
@[simp] theorem emit_inbox (n : Half) (v : RecValue) (s : State) : (emit n v s).inbox = s.inbox := rfl
@[simp] theorem emit_reply (n : Half) (v : RecValue) (s : State) : (emit n v s).reply = s.reply := rfl

@[simp] theorem interpretBegin_cfg (b : Half) (s : State) : (interpretBegin b s).cfg = s.cfg := rfl
@[simp] theorem interpretBegin_buf (b : Half) (s : State) : (interpretBegin b s).buf = s.buf := rfl
@[simp] theorem interpretBegin_tx (b : Half) (s : State) : (interpretBegin b s).tx = s.tx := rfl
@[simp] theorem interpretBegin_recs (b : Half) (s : State) : (interpretBegin b s).recs = [] := rfl
@[simp] theorem interpretBegin_addr0 (b : Half) (s : State) : (interpretBegin b s).addr0 = s.addr0 := rfl
@[simp] theorem interpretBegin_addr1 (b : Half) (s : State) : (interpretBegin b s).addr1 = s.addr1 := rfl
@[simp] theorem interpretBegin_status (b : Half) (s : State) : (interpretBegin b s).status = s.status := rfl
@[simp] theorem interpretBegin_err (b : Half) (s : State) : (interpretBegin b s).err = s.err := rfl
@[simp] theorem interpretBegin_op (b : Half) (s : State) : (interpretBegin b s).op = s.op := rfl
@[simp] theorem interpretBegin_seq (b : Half) (s : State) : (interpretBegin b s).seq = s.seq := rfl
@[simp] theorem interpretBegin_res (b : Half) (s : State) :
    (interpretBegin b s).res = { s.res with recCnt := 0#16 } := rfl
@[simp] theorem interpretBegin_fsm (b : Half) (s : State) : (interpretBegin b s).fsm = s.fsm := rfl
@[simp] theorem interpretBegin_ism (b : Half) (s : State) : (interpretBegin b s).ism = .fetch := rfl
@[simp] theorem interpretBegin_cur (b : Half) (s : State) : (interpretBegin b s).cur = s.res.pStart := rfl
@[simp] theorem interpretBegin_dp (b : Half) (s : State) : (interpretBegin b s).dp = b := rfl
@[simp] theorem interpretBegin_lenVld (b : Half) (s : State) : (interpretBegin b s).lenVld = false := rfl
@[simp] theorem interpretBegin_lenVal (b : Half) (s : State) : (interpretBegin b s).lenVal = 0 := rfl
@[simp] theorem interpretBegin_dpPast (b : Half) (s : State) : (interpretBegin b s).dpPast = false := rfl
@[simp] theorem interpretBegin_comp (b : Half) (s : State) : (interpretBegin b s).comp = none := rfl
@[simp] theorem interpretBegin_draws (b : Half) (s : State) : (interpretBegin b s).draws = s.draws := rfl
@[simp] theorem interpretBegin_txGen (b : Half) (s : State) : (interpretBegin b s).txGen = s.txGen := rfl
@[simp] theorem interpretBegin_addr0Gen (b : Half) (s : State) : (interpretBegin b s).addr0Gen = s.addr0Gen := rfl
@[simp] theorem interpretBegin_addr1Gen (b : Half) (s : State) : (interpretBegin b s).addr1Gen = s.addr1Gen := rfl
@[simp] theorem interpretBegin_inbox (b : Half) (s : State) : (interpretBegin b s).inbox = s.inbox := rfl
@[simp] theorem interpretBegin_reply (b : Half) (s : State) : (interpretBegin b s).reply = s.reply := rfl

@[simp] theorem enter_cfg (f : Fsm) (s : State) : (s.enter f).cfg = s.cfg := rfl
@[simp] theorem enter_buf (f : Fsm) (s : State) : (s.enter f).buf = s.buf := rfl
@[simp] theorem enter_tx (f : Fsm) (s : State) : (s.enter f).tx = s.tx := rfl
@[simp] theorem enter_recs (f : Fsm) (s : State) : (s.enter f).recs = s.recs := rfl
@[simp] theorem enter_addr0 (f : Fsm) (s : State) : (s.enter f).addr0 = s.addr0 := rfl
@[simp] theorem enter_addr1 (f : Fsm) (s : State) : (s.enter f).addr1 = s.addr1 := rfl
@[simp] theorem enter_status (f : Fsm) (s : State) : (s.enter f).status = s.status := rfl
@[simp] theorem enter_err (f : Fsm) (s : State) : (s.enter f).err = s.err := rfl
@[simp] theorem enter_op (f : Fsm) (s : State) : (s.enter f).op = s.op := rfl
@[simp] theorem enter_seq (f : Fsm) (s : State) : (s.enter f).seq = s.seq := rfl
@[simp] theorem enter_res (f : Fsm) (s : State) : (s.enter f).res = s.res := rfl
@[simp] theorem enter_fsm (f : Fsm) (s : State) : (s.enter f).fsm = f := rfl
@[simp] theorem enter_ism (f : Fsm) (s : State) : (s.enter f).ism = s.ism := rfl
@[simp] theorem enter_cur (f : Fsm) (s : State) : (s.enter f).cur = s.cur := rfl
@[simp] theorem enter_dp (f : Fsm) (s : State) : (s.enter f).dp = s.dp := rfl
@[simp] theorem enter_lenVld (f : Fsm) (s : State) : (s.enter f).lenVld = s.lenVld := rfl
@[simp] theorem enter_lenVal (f : Fsm) (s : State) : (s.enter f).lenVal = s.lenVal := rfl
@[simp] theorem enter_dpPast (f : Fsm) (s : State) : (s.enter f).dpPast = s.dpPast := rfl
@[simp] theorem enter_comp (f : Fsm) (s : State) : (s.enter f).comp = s.comp := rfl
@[simp] theorem enter_draws (f : Fsm) (s : State) : (s.enter f).draws = s.draws := rfl
@[simp] theorem enter_txGen (f : Fsm) (s : State) : (s.enter f).txGen = s.txGen := rfl
@[simp] theorem enter_addr0Gen (f : Fsm) (s : State) : (s.enter f).addr0Gen = s.addr0Gen := rfl
@[simp] theorem enter_addr1Gen (f : Fsm) (s : State) : (s.enter f).addr1Gen = s.addr1Gen := rfl
@[simp] theorem enter_inbox (f : Fsm) (s : State) : (s.enter f).inbox = s.inbox := rfl
@[simp] theorem enter_reply (f : Fsm) (s : State) : (s.enter f).reply = s.reply := rfl

@[simp] theorem parseBegin_cfg (s : State) : (parseBegin s).cfg = s.cfg := rfl
@[simp] theorem parseBegin_buf (s : State) : (parseBegin s).buf = s.buf := rfl
@[simp] theorem parseBegin_tx (s : State) : (parseBegin s).tx = s.tx := rfl
@[simp] theorem parseBegin_recs (s : State) : (parseBegin s).recs = [] := rfl
@[simp] theorem parseBegin_addr0 (s : State) : (parseBegin s).addr0 = [] := rfl
@[simp] theorem parseBegin_addr1 (s : State) : (parseBegin s).addr1 = [] := rfl
@[simp] theorem parseBegin_status (s : State) : (parseBegin s).status = s.status.parseCleared := rfl
@[simp] theorem parseBegin_err (s : State) : (parseBegin s).err = s.err := rfl
@[simp] theorem parseBegin_op (s : State) : (parseBegin s).op = s.op := rfl
@[simp] theorem parseBegin_seq (s : State) : (parseBegin s).seq = s.seq := rfl
@[simp] theorem parseBegin_res (s : State) :
    (parseBegin s).res = { s.res with addr0Len := 0#5, addr1Len := 0#5, recCnt := 0#16, rem := 0#16 } := rfl
@[simp] theorem parseBegin_fsm (s : State) : (parseBegin s).fsm = .start := rfl
@[simp] theorem parseBegin_ism (s : State) : (parseBegin s).ism = s.ism := rfl
@[simp] theorem parseBegin_cur (s : State) : (parseBegin s).cur = s.cur := rfl
@[simp] theorem parseBegin_dp (s : State) : (parseBegin s).dp = s.dp := rfl
@[simp] theorem parseBegin_lenVld (s : State) : (parseBegin s).lenVld = s.lenVld := rfl
@[simp] theorem parseBegin_lenVal (s : State) : (parseBegin s).lenVal = s.lenVal := rfl
@[simp] theorem parseBegin_dpPast (s : State) : (parseBegin s).dpPast = s.dpPast := rfl
@[simp] theorem parseBegin_comp (s : State) : (parseBegin s).comp = s.comp := rfl
@[simp] theorem parseBegin_draws (s : State) : (parseBegin s).draws = s.draws + 1 := rfl
@[simp] theorem parseBegin_txGen (s : State) : (parseBegin s).txGen = s.txGen := rfl
@[simp] theorem parseBegin_addr0Gen (s : State) : (parseBegin s).addr0Gen = s.draws := rfl
@[simp] theorem parseBegin_addr1Gen (s : State) : (parseBegin s).addr1Gen = s.draws := rfl
@[simp] theorem parseBegin_inbox (s : State) : (parseBegin s).inbox = s.inbox := rfl
@[simp] theorem parseBegin_reply (s : State) : (parseBegin s).reply = s.reply := rfl

@[simp] theorem decodeControl_cfg (b : Byte) (l : Layout) (s : State) : (decodeControl b l s).cfg = s.cfg := rfl
@[simp] theorem decodeControl_buf (b : Byte) (l : Layout) (s : State) : (decodeControl b l s).buf = s.buf := rfl
@[simp] theorem decodeControl_tx (b : Byte) (l : Layout) (s : State) : (decodeControl b l s).tx = s.tx := rfl
@[simp] theorem decodeControl_recs (b : Byte) (l : Layout) (s : State) : (decodeControl b l s).recs = s.recs := rfl
@[simp] theorem decodeControl_addr0 (b : Byte) (l : Layout) (s : State) : (decodeControl b l s).addr0 = s.addr0 := rfl
@[simp] theorem decodeControl_addr1 (b : Byte) (l : Layout) (s : State) : (decodeControl b l s).addr1 = s.addr1 := rfl
@[simp] theorem decodeControl_status (b : Byte) (l : Layout) (s : State) :
    (decodeControl b l s).status = s.status := rfl
@[simp] theorem decodeControl_err (b : Byte) (l : Layout) (s : State) : (decodeControl b l s).err = s.err := rfl
@[simp] theorem decodeControl_op (b : Byte) (l : Layout) (s : State) : (decodeControl b l s).op = s.op := rfl
@[simp] theorem decodeControl_seq (b : Byte) (l : Layout) (s : State) : (decodeControl b l s).seq = s.seq := rfl
@[simp] theorem decodeControl_fsm (b : Byte) (l : Layout) (s : State) : (decodeControl b l s).fsm = s.fsm := rfl
@[simp] theorem decodeControl_ism (b : Byte) (l : Layout) (s : State) : (decodeControl b l s).ism = s.ism := rfl
@[simp] theorem decodeControl_cur (b : Byte) (l : Layout) (s : State) : (decodeControl b l s).cur = s.cur := rfl
@[simp] theorem decodeControl_dp (b : Byte) (l : Layout) (s : State) : (decodeControl b l s).dp = s.dp := rfl
@[simp] theorem decodeControl_lenVld (b : Byte) (l : Layout) (s : State) :
    (decodeControl b l s).lenVld = s.lenVld := rfl
@[simp] theorem decodeControl_lenVal (b : Byte) (l : Layout) (s : State) :
    (decodeControl b l s).lenVal = s.lenVal := rfl
@[simp] theorem decodeControl_dpPast (b : Byte) (l : Layout) (s : State) :
    (decodeControl b l s).dpPast = s.dpPast := rfl
@[simp] theorem decodeControl_comp (b : Byte) (l : Layout) (s : State) : (decodeControl b l s).comp = s.comp := rfl
@[simp] theorem decodeControl_draws (b : Byte) (l : Layout) (s : State) : (decodeControl b l s).draws = s.draws := rfl
@[simp] theorem decodeControl_txGen (b : Byte) (l : Layout) (s : State) : (decodeControl b l s).txGen = s.txGen := rfl
@[simp] theorem decodeControl_addr0Gen (b : Byte) (l : Layout) (s : State) :
    (decodeControl b l s).addr0Gen = s.addr0Gen := rfl
@[simp] theorem decodeControl_addr1Gen (b : Byte) (l : Layout) (s : State) :
    (decodeControl b l s).addr1Gen = s.addr1Gen := rfl
@[simp] theorem decodeControl_inbox (b : Byte) (l : Layout) (s : State) : (decodeControl b l s).inbox = s.inbox := rfl
@[simp] theorem decodeControl_reply (b : Byte) (l : Layout) (s : State) : (decodeControl b l s).reply = s.reply := rfl

@[simp] theorem setPayload_cfg (a e : Nat) (d : Byte) (s : State) : (setPayload a e d s).cfg = s.cfg := rfl
@[simp] theorem setPayload_buf (a e : Nat) (d : Byte) (s : State) : (setPayload a e d s).buf = s.buf := rfl
@[simp] theorem setPayload_tx (a e : Nat) (d : Byte) (s : State) : (setPayload a e d s).tx = s.tx := rfl
@[simp] theorem setPayload_recs (a e : Nat) (d : Byte) (s : State) : (setPayload a e d s).recs = s.recs := rfl
@[simp] theorem setPayload_addr0 (a e : Nat) (d : Byte) (s : State) : (setPayload a e d s).addr0 = s.addr0 := rfl
@[simp] theorem setPayload_addr1 (a e : Nat) (d : Byte) (s : State) : (setPayload a e d s).addr1 = s.addr1 := rfl
@[simp] theorem setPayload_status (a e : Nat) (d : Byte) (s : State) : (setPayload a e d s).status = s.status := rfl
@[simp] theorem setPayload_err (a e : Nat) (d : Byte) (s : State) : (setPayload a e d s).err = s.err := rfl
@[simp] theorem setPayload_op (a e : Nat) (d : Byte) (s : State) : (setPayload a e d s).op = s.op := rfl
@[simp] theorem setPayload_seq (a e : Nat) (d : Byte) (s : State) : (setPayload a e d s).seq = s.seq := rfl
@[simp] theorem setPayload_res (a e : Nat) (d : Byte) (s : State) :
    (setPayload a e d s).res = { s.res with pStart := BitVec.ofNat 16 a, pEnd := BitVec.ofNat 16 e, deobf := d } := rfl
@[simp] theorem setPayload_fsm (a e : Nat) (d : Byte) (s : State) : (setPayload a e d s).fsm = s.fsm := rfl
@[simp] theorem setPayload_ism (a e : Nat) (d : Byte) (s : State) : (setPayload a e d s).ism = s.ism := rfl
@[simp] theorem setPayload_cur (a e : Nat) (d : Byte) (s : State) : (setPayload a e d s).cur = s.cur := rfl
@[simp] theorem setPayload_dp (a e : Nat) (d : Byte) (s : State) : (setPayload a e d s).dp = s.dp := rfl
@[simp] theorem setPayload_lenVld (a e : Nat) (d : Byte) (s : State) : (setPayload a e d s).lenVld = s.lenVld := rfl
@[simp] theorem setPayload_lenVal (a e : Nat) (d : Byte) (s : State) : (setPayload a e d s).lenVal = s.lenVal := rfl
@[simp] theorem setPayload_dpPast (a e : Nat) (d : Byte) (s : State) : (setPayload a e d s).dpPast = s.dpPast := rfl
@[simp] theorem setPayload_comp (a e : Nat) (d : Byte) (s : State) : (setPayload a e d s).comp = s.comp := rfl
@[simp] theorem setPayload_draws (a e : Nat) (d : Byte) (s : State) : (setPayload a e d s).draws = s.draws := rfl
@[simp] theorem setPayload_txGen (a e : Nat) (d : Byte) (s : State) : (setPayload a e d s).txGen = s.txGen := rfl
@[simp] theorem setPayload_addr0Gen (a e : Nat) (d : Byte) (s : State) :
    (setPayload a e d s).addr0Gen = s.addr0Gen := rfl
@[simp] theorem setPayload_addr1Gen (a e : Nat) (d : Byte) (s : State) :
    (setPayload a e d s).addr1Gen = s.addr1Gen := rfl
@[simp] theorem setPayload_inbox (a e : Nat) (d : Byte) (s : State) : (setPayload a e d s).inbox = s.inbox := rfl
@[simp] theorem setPayload_reply (a e : Nat) (d : Byte) (s : State) : (setPayload a e d s).reply = s.reply := rfl

@[simp] theorem setCheck_cfg (d c : Half) (s : State) : (setCheck d c s).cfg = s.cfg := rfl
@[simp] theorem setCheck_buf (d c : Half) (s : State) : (setCheck d c s).buf = s.buf := rfl
@[simp] theorem setCheck_tx (d c : Half) (s : State) : (setCheck d c s).tx = s.tx := rfl
@[simp] theorem setCheck_recs (d c : Half) (s : State) : (setCheck d c s).recs = s.recs := rfl
@[simp] theorem setCheck_addr0 (d c : Half) (s : State) : (setCheck d c s).addr0 = s.addr0 := rfl
@[simp] theorem setCheck_addr1 (d c : Half) (s : State) : (setCheck d c s).addr1 = s.addr1 := rfl
@[simp] theorem setCheck_status (d c : Half) (s : State) : (setCheck d c s).status = s.status.withCk d c := rfl
@[simp] theorem setCheck_err (d c : Half) (s : State) : (setCheck d c s).err = s.err := rfl
@[simp] theorem setCheck_op (d c : Half) (s : State) : (setCheck d c s).op = s.op := rfl
@[simp] theorem setCheck_seq (d c : Half) (s : State) : (setCheck d c s).seq = s.seq := rfl
@[simp] theorem setCheck_res (d c : Half) (s : State) :
    (setCheck d c s).res = { s.res with ckDecl := d, ckComp := c } := rfl
@[simp] theorem setCheck_fsm (d c : Half) (s : State) : (setCheck d c s).fsm = s.fsm := rfl
@[simp] theorem setCheck_ism (d c : Half) (s : State) : (setCheck d c s).ism = s.ism := rfl
@[simp] theorem setCheck_cur (d c : Half) (s : State) : (setCheck d c s).cur = s.cur := rfl
@[simp] theorem setCheck_dp (d c : Half) (s : State) : (setCheck d c s).dp = s.dp := rfl
@[simp] theorem setCheck_lenVld (d c : Half) (s : State) : (setCheck d c s).lenVld = s.lenVld := rfl
@[simp] theorem setCheck_lenVal (d c : Half) (s : State) : (setCheck d c s).lenVal = s.lenVal := rfl
@[simp] theorem setCheck_dpPast (d c : Half) (s : State) : (setCheck d c s).dpPast = s.dpPast := rfl
@[simp] theorem setCheck_comp (d c : Half) (s : State) : (setCheck d c s).comp = s.comp := rfl
@[simp] theorem setCheck_draws (d c : Half) (s : State) : (setCheck d c s).draws = s.draws := rfl
@[simp] theorem setCheck_txGen (d c : Half) (s : State) : (setCheck d c s).txGen = s.txGen := rfl
@[simp] theorem setCheck_addr0Gen (d c : Half) (s : State) : (setCheck d c s).addr0Gen = s.addr0Gen := rfl
@[simp] theorem setCheck_addr1Gen (d c : Half) (s : State) : (setCheck d c s).addr1Gen = s.addr1Gen := rfl
@[simp] theorem setCheck_inbox (d c : Half) (s : State) : (setCheck d c s).inbox = s.inbox := rfl
@[simp] theorem setCheck_reply (d c : Half) (s : State) : (setCheck d c s).reply = s.reply := rfl

@[simp] theorem setAddr0_cfg (a n : Nat) (s : State) : (setAddr0 a n s).cfg = s.cfg := rfl
@[simp] theorem setAddr0_buf (a n : Nat) (s : State) : (setAddr0 a n s).buf = s.buf := rfl
@[simp] theorem setAddr0_tx (a n : Nat) (s : State) : (setAddr0 a n s).tx = s.tx := rfl
@[simp] theorem setAddr0_recs (a n : Nat) (s : State) : (setAddr0 a n s).recs = s.recs := rfl
@[simp] theorem setAddr0_addr0 (a n : Nat) (s : State) :
    (setAddr0 a n s).addr0 = Memory.ofBytes 0 (reverseBytes (s.bufRange a n)) := rfl
@[simp] theorem setAddr0_addr1 (a n : Nat) (s : State) : (setAddr0 a n s).addr1 = s.addr1 := rfl
@[simp] theorem setAddr0_status (a n : Nat) (s : State) : (setAddr0 a n s).status = s.status := rfl
@[simp] theorem setAddr0_err (a n : Nat) (s : State) : (setAddr0 a n s).err = s.err := rfl
@[simp] theorem setAddr0_op (a n : Nat) (s : State) : (setAddr0 a n s).op = s.op := rfl
@[simp] theorem setAddr0_seq (a n : Nat) (s : State) : (setAddr0 a n s).seq = s.seq := rfl
@[simp] theorem setAddr0_res (a n : Nat) (s : State) :
    (setAddr0 a n s).res = { s.res with addr0Len := BitVec.ofNat 5 n } := rfl
@[simp] theorem setAddr0_fsm (a n : Nat) (s : State) : (setAddr0 a n s).fsm = s.fsm := rfl
@[simp] theorem setAddr0_ism (a n : Nat) (s : State) : (setAddr0 a n s).ism = s.ism := rfl
@[simp] theorem setAddr0_cur (a n : Nat) (s : State) : (setAddr0 a n s).cur = s.cur := rfl
@[simp] theorem setAddr0_dp (a n : Nat) (s : State) : (setAddr0 a n s).dp = s.dp := rfl
@[simp] theorem setAddr0_lenVld (a n : Nat) (s : State) : (setAddr0 a n s).lenVld = s.lenVld := rfl
@[simp] theorem setAddr0_lenVal (a n : Nat) (s : State) : (setAddr0 a n s).lenVal = s.lenVal := rfl
@[simp] theorem setAddr0_dpPast (a n : Nat) (s : State) : (setAddr0 a n s).dpPast = s.dpPast := rfl
@[simp] theorem setAddr0_comp (a n : Nat) (s : State) : (setAddr0 a n s).comp = s.comp := rfl
@[simp] theorem setAddr0_draws (a n : Nat) (s : State) : (setAddr0 a n s).draws = s.draws := rfl
@[simp] theorem setAddr0_txGen (a n : Nat) (s : State) : (setAddr0 a n s).txGen = s.txGen := rfl
@[simp] theorem setAddr0_addr0Gen (a n : Nat) (s : State) : (setAddr0 a n s).addr0Gen = s.addr0Gen := rfl
@[simp] theorem setAddr0_addr1Gen (a n : Nat) (s : State) : (setAddr0 a n s).addr1Gen = s.addr1Gen := rfl
@[simp] theorem setAddr0_inbox (a n : Nat) (s : State) : (setAddr0 a n s).inbox = s.inbox := rfl
@[simp] theorem setAddr0_reply (a n : Nat) (s : State) : (setAddr0 a n s).reply = s.reply := rfl

@[simp] theorem setAddr1_cfg (a n : Nat) (s : State) : (setAddr1 a n s).cfg = s.cfg := rfl
@[simp] theorem setAddr1_buf (a n : Nat) (s : State) : (setAddr1 a n s).buf = s.buf := rfl
@[simp] theorem setAddr1_tx (a n : Nat) (s : State) : (setAddr1 a n s).tx = s.tx := rfl
@[simp] theorem setAddr1_recs (a n : Nat) (s : State) : (setAddr1 a n s).recs = s.recs := rfl
@[simp] theorem setAddr1_addr0 (a n : Nat) (s : State) : (setAddr1 a n s).addr0 = s.addr0 := rfl
@[simp] theorem setAddr1_addr1 (a n : Nat) (s : State) :
    (setAddr1 a n s).addr1 = Memory.ofBytes 0 (reverseBytes (s.bufRange a n)) := rfl
@[simp] theorem setAddr1_status (a n : Nat) (s : State) : (setAddr1 a n s).status = s.status := rfl
@[simp] theorem setAddr1_err (a n : Nat) (s : State) : (setAddr1 a n s).err = s.err := rfl
@[simp] theorem setAddr1_op (a n : Nat) (s : State) : (setAddr1 a n s).op = s.op := rfl
@[simp] theorem setAddr1_seq (a n : Nat) (s : State) : (setAddr1 a n s).seq = s.seq := rfl
@[simp] theorem setAddr1_res (a n : Nat) (s : State) :
    (setAddr1 a n s).res = { s.res with addr1Len := BitVec.ofNat 5 n } := rfl
@[simp] theorem setAddr1_fsm (a n : Nat) (s : State) : (setAddr1 a n s).fsm = s.fsm := rfl
@[simp] theorem setAddr1_ism (a n : Nat) (s : State) : (setAddr1 a n s).ism = s.ism := rfl
@[simp] theorem setAddr1_cur (a n : Nat) (s : State) : (setAddr1 a n s).cur = s.cur := rfl
@[simp] theorem setAddr1_dp (a n : Nat) (s : State) : (setAddr1 a n s).dp = s.dp := rfl
@[simp] theorem setAddr1_lenVld (a n : Nat) (s : State) : (setAddr1 a n s).lenVld = s.lenVld := rfl
@[simp] theorem setAddr1_lenVal (a n : Nat) (s : State) : (setAddr1 a n s).lenVal = s.lenVal := rfl
@[simp] theorem setAddr1_dpPast (a n : Nat) (s : State) : (setAddr1 a n s).dpPast = s.dpPast := rfl
@[simp] theorem setAddr1_comp (a n : Nat) (s : State) : (setAddr1 a n s).comp = s.comp := rfl
@[simp] theorem setAddr1_draws (a n : Nat) (s : State) : (setAddr1 a n s).draws = s.draws := rfl
@[simp] theorem setAddr1_txGen (a n : Nat) (s : State) : (setAddr1 a n s).txGen = s.txGen := rfl
@[simp] theorem setAddr1_addr0Gen (a n : Nat) (s : State) : (setAddr1 a n s).addr0Gen = s.addr0Gen := rfl
@[simp] theorem setAddr1_addr1Gen (a n : Nat) (s : State) : (setAddr1 a n s).addr1Gen = s.addr1Gen := rfl
@[simp] theorem setAddr1_inbox (a n : Nat) (s : State) : (setAddr1 a n s).inbox = s.inbox := rfl
@[simp] theorem setAddr1_reply (a n : Nat) (s : State) : (setAddr1 a n s).reply = s.reply := rfl

@[simp] theorem lookupMiss_cfg (s : State) : (lookupMiss s).cfg = s.cfg := rfl
@[simp] theorem lookupMiss_buf (s : State) : (lookupMiss s).buf = s.buf := rfl
@[simp] theorem lookupMiss_tx (s : State) : (lookupMiss s).tx = s.tx := rfl
@[simp] theorem lookupMiss_recs (s : State) : (lookupMiss s).recs = [] := rfl
@[simp] theorem lookupMiss_addr0 (s : State) : (lookupMiss s).addr0 = s.addr0 := rfl
@[simp] theorem lookupMiss_addr1 (s : State) : (lookupMiss s).addr1 = s.addr1 := rfl
@[simp] theorem lookupMiss_status (s : State) : (lookupMiss s).status = s.status.missed := rfl
@[simp] theorem lookupMiss_err (s : State) : (lookupMiss s).err = s.err := rfl
@[simp] theorem lookupMiss_op (s : State) : (lookupMiss s).op = s.op := rfl
@[simp] theorem lookupMiss_seq (s : State) : (lookupMiss s).seq = s.seq := rfl
@[simp] theorem lookupMiss_res (s : State) :
    (lookupMiss s).res = { s.res with recCnt := 0#16, rem := s.res.pEnd - s.res.pStart } := rfl
@[simp] theorem lookupMiss_fsm (s : State) : (lookupMiss s).fsm = s.fsm := rfl
@[simp] theorem lookupMiss_ism (s : State) : (lookupMiss s).ism = s.ism := rfl
@[simp] theorem lookupMiss_cur (s : State) : (lookupMiss s).cur = s.res.pStart := rfl
@[simp] theorem lookupMiss_dp (s : State) : (lookupMiss s).dp = s.dp := rfl
@[simp] theorem lookupMiss_lenVld (s : State) : (lookupMiss s).lenVld = s.lenVld := rfl
@[simp] theorem lookupMiss_lenVal (s : State) : (lookupMiss s).lenVal = s.lenVal := rfl
@[simp] theorem lookupMiss_dpPast (s : State) : (lookupMiss s).dpPast = s.dpPast := rfl
@[simp] theorem lookupMiss_comp (s : State) : (lookupMiss s).comp = s.comp := rfl
@[simp] theorem lookupMiss_draws (s : State) : (lookupMiss s).draws = s.draws := rfl
@[simp] theorem lookupMiss_txGen (s : State) : (lookupMiss s).txGen = s.txGen := rfl
@[simp] theorem lookupMiss_addr0Gen (s : State) : (lookupMiss s).addr0Gen = s.addr0Gen := rfl
@[simp] theorem lookupMiss_addr1Gen (s : State) : (lookupMiss s).addr1Gen = s.addr1Gen := rfl
@[simp] theorem lookupMiss_inbox (s : State) : (lookupMiss s).inbox = s.inbox := rfl
@[simp] theorem lookupMiss_reply (s : State) : (lookupMiss s).reply = s.reply := rfl

@[simp] theorem issued_busy (f : Status) : f.issued.busy = true := rfl
@[simp] theorem issued_done (f : Status) : f.issued.done = false := rfl
@[simp] theorem issued_err (f : Status) : f.issued.err = false := rfl
@[simp] theorem issued_ckValid (f : Status) : f.issued.ckValid = f.ckValid := rfl
@[simp] theorem issued_hkValid (f : Status) : f.issued.hkValid = f.hkValid := rfl
@[simp] theorem issued_dictMiss (f : Status) : f.issued.dictMiss = f.dictMiss := rfl
@[simp] theorem issued_recValid (f : Status) : f.issued.recValid = f.recValid := rfl

@[simp] theorem ended_busy (f : Status) : f.ended.busy = false := rfl
@[simp] theorem ended_done (f : Status) : f.ended.done = true := rfl
@[simp] theorem ended_err (f : Status) : f.ended.err = f.err := rfl
@[simp] theorem ended_ckValid (f : Status) : f.ended.ckValid = f.ckValid := rfl
@[simp] theorem ended_hkValid (f : Status) : f.ended.hkValid = f.hkValid := rfl
@[simp] theorem ended_dictMiss (f : Status) : f.ended.dictMiss = f.dictMiss := rfl
@[simp] theorem ended_recValid (f : Status) : f.ended.recValid = f.recValid := rfl

@[simp] theorem raised_busy (f : Status) : f.raised.busy = false := rfl
@[simp] theorem raised_done (f : Status) : f.raised.done = true := rfl
@[simp] theorem raised_err (f : Status) : f.raised.err = true := rfl
@[simp] theorem raised_ckValid (f : Status) : f.raised.ckValid = f.ckValid := rfl
@[simp] theorem raised_hkValid (f : Status) : f.raised.hkValid = f.hkValid := rfl
@[simp] theorem raised_dictMiss (f : Status) : f.raised.dictMiss = f.dictMiss := rfl
@[simp] theorem raised_recValid (f : Status) : f.raised.recValid = f.recValid := rfl

@[simp] theorem parseCleared_busy (f : Status) : f.parseCleared.busy = f.busy := rfl
@[simp] theorem parseCleared_done (f : Status) : f.parseCleared.done = f.done := rfl
@[simp] theorem parseCleared_err (f : Status) : f.parseCleared.err = f.err := rfl
@[simp] theorem parseCleared_ckValid (f : Status) : f.parseCleared.ckValid = false := rfl
@[simp] theorem parseCleared_hkValid (f : Status) : f.parseCleared.hkValid = false := rfl
@[simp] theorem parseCleared_dictMiss (f : Status) : f.parseCleared.dictMiss = false := rfl
@[simp] theorem parseCleared_recValid (f : Status) : f.parseCleared.recValid = false := rfl

@[simp] theorem recCleared_busy (f : Status) : f.recCleared.busy = f.busy := rfl
@[simp] theorem recCleared_done (f : Status) : f.recCleared.done = f.done := rfl
@[simp] theorem recCleared_err (f : Status) : f.recCleared.err = f.err := rfl
@[simp] theorem recCleared_ckValid (f : Status) : f.recCleared.ckValid = f.ckValid := rfl
@[simp] theorem recCleared_hkValid (f : Status) : f.recCleared.hkValid = f.hkValid := rfl
@[simp] theorem recCleared_dictMiss (f : Status) : f.recCleared.dictMiss = f.dictMiss := rfl
@[simp] theorem recCleared_recValid (f : Status) : f.recCleared.recValid = false := rfl

@[simp] theorem recSet_busy (f : Status) : f.recSet.busy = f.busy := rfl
@[simp] theorem recSet_done (f : Status) : f.recSet.done = f.done := rfl
@[simp] theorem recSet_err (f : Status) : f.recSet.err = f.err := rfl
@[simp] theorem recSet_ckValid (f : Status) : f.recSet.ckValid = f.ckValid := rfl
@[simp] theorem recSet_hkValid (f : Status) : f.recSet.hkValid = f.hkValid := rfl
@[simp] theorem recSet_dictMiss (f : Status) : f.recSet.dictMiss = f.dictMiss := rfl
@[simp] theorem recSet_recValid (f : Status) : f.recSet.recValid = true := rfl

@[simp] theorem missed_busy (f : Status) : f.missed.busy = f.busy := rfl
@[simp] theorem missed_done (f : Status) : f.missed.done = f.done := rfl
@[simp] theorem missed_err (f : Status) : f.missed.err = f.err := rfl
@[simp] theorem missed_ckValid (f : Status) : f.missed.ckValid = f.ckValid := rfl
@[simp] theorem missed_hkValid (f : Status) : f.missed.hkValid = f.hkValid := rfl
@[simp] theorem missed_dictMiss (f : Status) : f.missed.dictMiss = true := rfl
@[simp] theorem missed_recValid (f : Status) : f.missed.recValid = f.recValid := rfl

end Sys2Proof.Machine
end

