-- ==== Sys2Proof/Laws/Ops.lean ====
section
/-! SUPPORT. One lemma per shared operation that says once everything it can do: sequencing, the checks, DP, the
issue of a command, range words, and the walk. -/

namespace Sys2Proof.Machine

/-! ### Sequencing -/

@[simp] theorem bind_cont (s : State) (f : State → Stage) : (Stage.cont s).bind f = f s := rfl
@[simp] theorem bind_stop (s : State) (f : State → Stage) : (Stage.stop s).bind f = .stop s := rfl
@[simp] theorem state_cont (s : State) : (Stage.cont s).state = s := rfl
@[simp] theorem state_stop (s : State) : (Stage.stop s).state = s := rfl

theorem bind_assoc (x : Stage) (f g : State → Stage) : (x.bind f).bind g = x.bind fun s => (f s).bind g := by
  cases x <;> rfl

/-- A sequence goes on only if its first part went on. -/
theorem bind_eq_cont {x : Stage} {f : State → Stage} {t : State} :
    x.bind f = .cont t ↔ ∃ s, x = .cont s ∧ f s = .cont t := by
  cases x <;> simp [Stage.bind]

/-- A sequence stops where its first part stops, or later. -/
theorem bind_eq_stop {x : Stage} {f : State → Stage} {t : State} :
    x.bind f = .stop t ↔ x = .stop t ∨ ∃ s, x = .cont s ∧ f s = .stop t := by
  cases x <;> simp [Stage.bind]

/-- What the first part leaves and the second keeps, the sequence leaves. -/
theorem bind_keeps {P : State → Prop} {x : Stage} {f : State → Stage} (hx : P x.state)
    (hf : ∀ s, P s → P (f s).state) : P (x.bind f).state := by
  cases x with
  | cont s => exact hf s hx
  | stop s => exact hx

/-! ### Checks -/

/-- The sub-3 check changes nothing or raises (R281). -/
theorem bufCheck_cases (s : State) :
    (s.frameLen ≤ s.cfg.val.bufCap ∧ bufCheck s = .cont s)
      ∨ (s.cfg.val.bufCap < s.frameLen ∧ bufCheck s = .stop (raise .range 3 0 s.frameLen s)) := by
  unfold bufCheck raiseStage
  split
  · exact .inr ⟨‹_›, rfl⟩
  · exact .inl ⟨by omega, rfl⟩

/-- `need` changes nothing or raises InsufficientDataError at CUR (R164). -/
theorem need_cases (name : Half) (n : Nat) (s : State) :
    (s.cur.toNat + n ≤ s.res.pEnd.toNat ∧ need name n s = .cont s)
      ∨ (s.res.pEnd.toNat < s.cur.toNat + n
          ∧ need name n s = .stop (raise .insufficientData 0 name s.cur.toNat s)) := by
  unfold need raiseStage
  split
  · exact .inr ⟨‹_›, rfl⟩
  · exact .inl ⟨by omega, rfl⟩

/-- ERROFF holds an index that fits exactly (R293). -/
theorem off16_of_lt {s : State} {n : Nat} (h : n < 65536) : s.off16 n = BitVec.ofNat 16 n := by
  simp [State.off16, h]

/-! ### DP -/

/-- DP takes an index that fits and changes nothing else (R35). -/
theorem setDp_of_lt {n : Nat} (s : State) (h : n < 65536) :
    State.setDp n s = { s with dp := BitVec.ofNat 16 n, dpPast := false } := by
  simp [State.setDp, h]

/-- After `DP <- n` the walk's next index is n, or 65536 when n does not fit. -/
theorem dpIndex_setDp (n : Nat) (s : State) : (State.setDp n s).dpIndex = min n 65536 := by
  unfold State.setDp
  split
  · simp [State.dpIndex]; omega
  · simp [State.dpIndex]; omega

/-- `DP <- n` touches DP and the model's own fields only. -/
theorem setDp_eq (n : Nat) (s : State) :
    ∃ d p k, State.setDp n s = { s with dp := d, dpPast := p, draws := k } := by
  unfold State.setDp
  split
  · exact ⟨_, _, _, rfl⟩
  · exact ⟨_, _, _, rfl⟩

/-- `advance` in full, for an index that fits (R162, R180). -/
theorem advance_of_lt {b w : Nat} (s : State) (h : s.dpIndex + w < 65536) :
    advance b w s =
      { s with
        dp := BitVec.ofNat 16 (s.dpIndex + w)
        dpPast := false
        cur := s.cur + BitVec.ofNat 16 b
        ism := .fetch } := by
  simp [advance, setDp_of_lt s h]

/-! ### Issue -/

/-- A command's end: its pseudocode went on to its end, or a `raise` ended it and R297 applies. -/
theorem issue_cases (spoil : State → State) (body : State → Stage) (s : State) :
    (∃ t, body (issueBegin s) = .cont t ∧ issue spoil body s = issueEnd t)
      ∨ (∃ t, body (issueBegin s) = .stop t ∧ issue spoil body s = issueEnd (spoil t)) := by
  unfold issue settle
  cases body (issueBegin s) with
  | cont t => exact .inl ⟨t, rfl, rfl⟩
  | stop t => exact .inr ⟨t, rfl, rfl⟩

/-- Issuing changes no predicate that its parts keep. -/
theorem issue_keeps {P : State → Prop} {spoil : State → State} {body : State → Stage} {s : State}
    (hbody : P (body (issueBegin s)).state) (hspoil : ∀ t, P t → P (spoil t))
    (hend : ∀ t, P t → P (issueEnd t)) : P (issue spoil body s) := by
  rcases issue_cases spoil body s with ⟨t, ht, h⟩ | ⟨t, ht, h⟩
  · rw [h]; rw [ht] at hbody; exact hend t hbody
  · rw [h]; rw [ht] at hbody; exact hend _ (hspoil t hbody)

/-! ### Range words and the walk -/

/-- A range word in range position appends one sub-value or raises (R146). -/
theorem rangeTurn_cases (r : RangeFields) (c : Composite) (s : State) :
    (r.ok = true ∧ rangeTurn r c s = .cont { s with
        comp := some { c with
          pos := c.pos + 1
          subs := c.subs ++ [⟨r.sub, r.start, r.stop, extract c.byte r.start r.stop⟩] } })
      ∨ (r.ok = false ∧ ∃ sub, (sub = 1 ∨ sub = 2)
          ∧ rangeTurn r c s = .stop (raise .dictionary sub r.sub c.pos s)) := by
  unfold rangeTurn raiseStage RangeFields.ok
  split
  · rename_i h
    refine .inr ⟨?_, 2, .inr rfl, rfl⟩
    rcases h with h | h <;> simp [h]
  · rename_i h
    simp only [ne_eq, not_or, Decidable.not_not] at h
    split
    · rename_i h'
      exact .inr ⟨by simp [h'], 1, .inl rfl, rfl⟩
    · rename_i h'
      exact .inl ⟨by simp [h]; omega, rfl⟩

/-- What one range fetch keeps, all of a composite's range words keep. -/
theorem rangeWords_keeps {P : State → Prop} (h : ∀ s, P s → P (rangeFetch s).state) (k : Nat) (s : State)
    (hs : P s) : P (rangeWords k s).state := by
  induction k generalizing s with
  | zero => exact hs
  | succ k ih => exact bind_keeps (h s hs) fun t ht => ih t ht

/-- What one turn keeps, the walk keeps, whatever its fuel (R162). -/
theorem walk_keeps {P : State → Prop} (h : ∀ s, P s → P (walkTurn s).state) (n : Nat) (s : State) (hs : P s) :
    P (walk n s).state := by
  induction n generalizing s with
  | zero => exact hs
  | succ n ih =>
    refine bind_keeps (h s hs) fun t ht => ?_
    split
    · exact ih t ht
    all_goals exact ht

/-- One turn of the walk runs exactly the word at DP (R162, R165). -/
theorem walkTurn_of_word {s : State} {w : Word} (h : s.dromWord s.dpIndex = some w) :
    walkTurn s = descriptor (decodeDesc w) { s with ism := .exec } := by
  simp [walkTurn, h]

theorem walkTurn_past {s : State} (h : s.dromWord s.dpIndex = none) :
    walkTurn s = .stop (raise .dictionary 3 0 s.dpIndex s) := by
  simp [walkTurn, h, raiseStage]

/-! ### Lookup keys and the dictionary -/

@[simp] theorem keyOf_never (v : KeyView) : keyOf .never v = none := rfl
@[simp] theorem keyOf_parts (ps : List KeyPart) (v : KeyView) : keyOf (.parts ps) v = keyConcat v 0 ps := rfl
@[simp] theorem keyOf_table (rows : List (KeyView × Nat)) (v : KeyView) :
    keyOf (.table rows) v = keyTable v rows := rfl

/-- The table of a function on some views gives its value on each of them and no key elsewhere. -/
theorem keyTable_filterMap (f : KeyView → Option Nat) (v : KeyView) (vs : List KeyView) :
    keyTable v (vs.filterMap fun w => (f w).map fun k => (w, k)) = if v ∈ vs then f v else none := by
  induction vs with
  | nil => rfl
  | cons w rest ih =>
    cases hw : f w with
    | none =>
      rw [List.filterMap_cons, hw]
      by_cases hv : v = w
      · subst hv; simp [ih, hw]
      · simp [ih, hv]
    | some k =>
      rw [List.filterMap_cons, hw]
      by_cases hv : v = w
      · subst hv; simp [keyTable, hw]
      · simp [keyTable, ih, hv]

/-- `table` reaches every key function: whatever function KEY_B or KEY_C is, some table agrees with it on any given
views, and a machine has finitely many (R7). -/
theorem keyOf_table_reaches (f : KeyView → Option Nat) (vs : List KeyView) :
    ∃ rows, ∀ v ∈ vs, keyOf (.table rows) v = f v :=
  ⟨_, fun v hv => by rw [keyOf_table, keyTable_filterMap, if_pos hv]⟩

/-- `DICT(k)` is the library's lookup in the list of pairs (R41). -/
theorem dictFind_eq_lookup (d : List (Nat × Half)) (k : Nat) : dictFind d k = d.lookup k := by
  induction d with
  | nil => rfl
  | cons p rest ih =>
    by_cases h : k = p.1
    · simp [dictFind, List.lookup, h]
    · simp [dictFind, List.lookup, h, ih, beq_eq_false_iff_ne.mpr h]

/-- `delegate` interprets the payload on a hit and leaves it as a range on a miss (R238). -/
theorem delegate_cases (k : Option Nat) (s : State) :
    (k.bind s.dictLookup = none ∧ delegate k s = .cont (lookupMiss s))
      ∨ ∃ base, k.bind s.dictLookup = some base ∧ delegate k s = interpret base s := by
  unfold delegate
  cases k.bind s.dictLookup with
  | none => exact .inl ⟨rfl, rfl⟩
  | some base => exact .inr ⟨base, rfl, rfl⟩

/-- The END stage ends the command in DONE or raises EnvelopeError sub 2 at N − 1 (R242). -/
theorem endStage_cases (s : State) :
    (s.bufByte (s.frameLen - 1) = endMarker ∧ endStage s = .cont { s with fsm := .done })
      ∨ (s.bufByte (s.frameLen - 1) ≠ endMarker
          ∧ endStage s = .stop (raise .envelope 2 13 (s.frameLen - 1) { s with fsm := .endMark })) := by
  by_cases h : s.bufByte (s.frameLen - 1) = endMarker
  · refine .inl ⟨h, if_neg ?_⟩
    exact fun hn => hn h
  · exact .inr ⟨h, if_pos h⟩

/-! ### The host port -/

/-- The only access with a transition while BUSY = 1 is a STATUS poll (U5). -/
theorem access_of_idle {a : HostAccess} {s : State} (h : s.status.busy = false) : access a s = perform a s := by
  simp [access, h]

/-- A step takes the first access of those to come. -/
theorem step_cons {s : State} {a : HostAccess} {rest : List HostAccess} (h : s.inbox = a :: rest) :
    step s = access a { s with inbox := rest } := by
  simp [step, takeAccess, h]

end Sys2Proof.Machine
end

