-- ==== Sys2Proof/Laws/PerInstr.lean ====
section
/-! SUPPORT. The family TableRow: the stored form of each instruction carries the fixed bits that
spec/opcode_table.json gives its row, in the row's format. -/

namespace Sys2Proof.Laws

/-- A row's format width and fixed bits, from the table's "fixed" column: bits `hi` down to `lo` hold `value`. -/
structure Row where
  nbits : Nat
  hi : Nat
  lo : Nat
  value : Nat

/-- The row of each instruction in spec/opcode_table.json. -/
def rowOf : Instr → Row
  | .nop => ⟨8, 7, 0, 0⟩
  | .chksum => ⟨8, 7, 0, 1⟩
  | .crc16 => ⟨8, 7, 0, 2⟩
  | .tblrd => ⟨8, 7, 0, 3⟩
  | .bitx => ⟨8, 7, 0, 4⟩
  | .bitc => ⟨8, 7, 0, 5⟩
  | .dctl => ⟨8, 7, 0, 6⟩
  | .interp => ⟨8, 7, 0, 7⟩
  | .parsea => ⟨8, 7, 0, 8⟩
  | .parseb => ⟨8, 7, 0, 9⟩
  | .parsec => ⟨8, 7, 0, 10⟩
  | .enca => ⟨8, 7, 0, 11⟩
  | .reserved0c _ => ⟨8, 7, 2, 3⟩
  | .reserved10 _ => ⟨8, 7, 4, 1⟩
  | .reserved20 _ => ⟨8, 7, 5, 1⟩
  | .reserved40 _ => ⟨8, 7, 6, 1⟩
  | .reserved80 _ => ⟨8, 7, 7, 1⟩
  | .endList _ => ⟨32, 31, 28, 0⟩
  | .bin _ => ⟨32, 31, 28, 1⟩
  | .bs _ => ⟨32, 31, 28, 2⟩
  | .ascii _ => ⟨32, 31, 28, 3⟩
  | .bcdDate _ => ⟨32, 31, 28, 4⟩
  | .bcd _ => ⟨32, 31, 28, 5⟩
  | .content _ => ⟨32, 31, 28, 6⟩
  | .range _ => ⟨32, 31, 28, 7⟩
  | .unknownTag _ _ => ⟨32, 31, 31, 1⟩

/-- A stored form fits a row: the row's width, and its fixed bits. -/
def Row.fits (r : Row) : Encoded → Prop
  | .cmd b => r.nbits = 8 ∧ b.extractLsb' r.lo (r.hi - r.lo + 1) = BitVec.ofNat _ r.value
  | .desc w => r.nbits = 32 ∧ w.extractLsb' r.lo (r.hi - r.lo + 1) = BitVec.ofNat _ r.value

/-- The stored form of the instruction fits its row of the table. -/
def TableRow.Statement (i : Instr) : Prop := (rowOf i).fits (encode i)

theorem extract_top {m n : Nat} (x : BitVec m) (y : BitVec n) : (x ++ y).extractLsb' n m = x := by
  apply BitVec.eq_of_getLsbD_eq
  intro i hi
  simp [BitVec.getLsbD_append, hi]

theorem tag_packHead (t : BitVec 4) (h : Head) : (packHead t h).extractLsb' 28 4 = t := by
  have e : packHead t h = (t ++ (h.l ++ h.rsv ++ h.size ++ h.name)).cast (by decide) := by
    unfold packHead
    apply BitVec.eq_of_getLsbD_eq
    intro i hi
    simp only [BitVec.getLsbD_append, BitVec.getLsbD_cast]
    grind
  rw [e]
  exact extract_top t _

theorem tag_packRange (r : RangeFields) : (packRange r).extractLsb' 28 4 = 7#4 := by
  have e : packRange r
      = (7#4 ++ (r.rsvHi ++ r.stop ++ r.rsvLo ++ r.start ++ r.sub)).cast (by decide) := by
    unfold packRange
    apply BitVec.eq_of_getLsbD_eq
    intro i hi
    simp only [BitVec.getLsbD_append, BitVec.getLsbD_cast]
    grind
  rw [e]
  exact extract_top _ _

theorem TableRow.nop : TableRow.Statement (.nop) :=
  ⟨rfl, by decide⟩

theorem TableRow.chksum : TableRow.Statement (.chksum) :=
  ⟨rfl, by decide⟩

theorem TableRow.crc16 : TableRow.Statement (.crc16) :=
  ⟨rfl, by decide⟩

theorem TableRow.tblrd : TableRow.Statement (.tblrd) :=
  ⟨rfl, by decide⟩

theorem TableRow.bitx : TableRow.Statement (.bitx) :=
  ⟨rfl, by decide⟩

theorem TableRow.bitc : TableRow.Statement (.bitc) :=
  ⟨rfl, by decide⟩

theorem TableRow.dctl : TableRow.Statement (.dctl) :=
  ⟨rfl, by decide⟩

theorem TableRow.interp : TableRow.Statement (.interp) :=
  ⟨rfl, by decide⟩

theorem TableRow.parsea : TableRow.Statement (.parsea) :=
  ⟨rfl, by decide⟩

theorem TableRow.parseb : TableRow.Statement (.parseb) :=
  ⟨rfl, by decide⟩

theorem TableRow.parsec : TableRow.Statement (.parsec) :=
  ⟨rfl, by decide⟩

theorem TableRow.enca : TableRow.Statement (.enca) :=
  ⟨rfl, by decide⟩

theorem TableRow.reserved0c (x : BitVec 2) : TableRow.Statement (.reserved0c x) :=
  ⟨rfl, by revert x; decide⟩

theorem TableRow.reserved10 (x : BitVec 4) : TableRow.Statement (.reserved10 x) :=
  ⟨rfl, by revert x; decide⟩

theorem TableRow.reserved20 (x : BitVec 5) : TableRow.Statement (.reserved20 x) :=
  ⟨rfl, by revert x; decide⟩

theorem TableRow.reserved40 (x : BitVec 6) : TableRow.Statement (.reserved40 x) :=
  ⟨rfl, by revert x; decide⟩

theorem TableRow.reserved80 (x : BitVec 7) : TableRow.Statement (.reserved80 x) :=
  ⟨rfl, by revert x; decide⟩

theorem TableRow.endList (h : Head) : TableRow.Statement (.endList h) :=
  ⟨rfl, tag_packHead _ h⟩

theorem TableRow.bin (h : Head) : TableRow.Statement (.bin h) :=
  ⟨rfl, tag_packHead _ h⟩

theorem TableRow.bs (h : Head) : TableRow.Statement (.bs h) :=
  ⟨rfl, tag_packHead _ h⟩

theorem TableRow.ascii (h : Head) : TableRow.Statement (.ascii h) :=
  ⟨rfl, tag_packHead _ h⟩

theorem TableRow.bcdDate (h : Head) : TableRow.Statement (.bcdDate h) :=
  ⟨rfl, tag_packHead _ h⟩

theorem TableRow.bcd (h : Head) : TableRow.Statement (.bcd h) :=
  ⟨rfl, tag_packHead _ h⟩

theorem TableRow.content (h : Head) : TableRow.Statement (.content h) :=
  ⟨rfl, tag_packHead _ h⟩

theorem TableRow.range (r : RangeFields) : TableRow.Statement (.range r) :=
  ⟨rfl, tag_packRange r⟩

theorem TableRow.unknownTag (t : BitVec 3) (h : Head) : TableRow.Statement (.unknownTag t h) := by
  refine ⟨rfl, ?_⟩
  show (packHead (1#1 ++ t) h).extractLsb' 31 1 = 1#1
  have e := congrArg (fun x => x.extractLsb' 3 1) (tag_packHead (1#1 ++ t) h)
  simp only [extract_top] at e
  refine Eq.trans ?_ e
  apply BitVec.eq_of_getLsbD_eq
  intro i hi
  obtain rfl : i = 0 := by omega
  simp

end Sys2Proof.Laws
end

