-- ==== Sys2Proof/Tests/Slice0.lean ====
section
/-! SUPPORT. Small tests: what WellFormed refuses, words written out bit by bit, one step of each instruction on the
vectors of 95_test_vectors.md (cited as V…), and for each statement with hypotheses a state that meets them. -/

namespace Sys2Proof.Tests

open Sys2Proof.Machine Sys2Proof.Spec

/-! ### WellFormed refuses each ill-formed shape -/

theorem test_wf_end_not_zero : Instr.wf (.endList ⟨0, 0, 0, 1⟩) = false := by decide
theorem test_wf_bin_reserved : Instr.wf (.bin ⟨1, 1, 2, 5⟩) = false := by decide
theorem test_wf_bin_length_flag : Instr.wf (.bin ⟨1, 0, 255, 5⟩) = true := by decide
theorem test_wf_bs_length_flag : Instr.wf (.bs ⟨1, 0, 3, 2⟩) = false := by decide
theorem test_wf_ascii_reserved : Instr.wf (.ascii ⟨0, 4, 4, 3⟩) = false := by decide
theorem test_wf_bcd_date_size : Instr.wf (.bcdDate ⟨0, 0, 2, 4⟩) = false := by decide
theorem test_wf_bcd_size : Instr.wf (.bcd ⟨0, 0, 3, 6⟩) = false := by decide
theorem test_wf_content_size : Instr.wf (.content ⟨0, 0, 1, 7⟩) = false := by decide
theorem test_wf_range_order : Instr.wf (.range ⟨0, 3, 0, 4, 13⟩) = false := by decide
theorem test_wf_range_reserved : Instr.wf (.range ⟨1, 4, 0, 3, 13⟩) = false := by decide
theorem test_wf_range_reserved_bit : Instr.wf (.range ⟨0, 4, 1, 3, 13⟩) = false := by decide

/-- R149: a layout with start > end is refused at configuration time (U15). -/
theorem test_config_refuses_layout (c : Config) (h : c.layoutB = ⟨some ⟨4, 3⟩, none, none, none, none⟩) :
    c.accept = none := by
  have hb : c.layoutB.ok = false := by rw [h]; decide
  have : c.wf = false := by simp [Config.wf, hb]
  simp [Config.accept, this]

/-! ### Decoding: words written out bit by bit (R82, R83, R85, R88, R90) -/

theorem test_decode_commands :
    decodeCmd 0b00000000#8 = .nop ∧ decodeCmd 0b00000001#8 = .chksum ∧ decodeCmd 0b00000010#8 = .crc16
      ∧ decodeCmd 0b00000011#8 = .tblrd ∧ decodeCmd 0b00000100#8 = .bitx ∧ decodeCmd 0b00000101#8 = .bitc
      ∧ decodeCmd 0b00000110#8 = .dctl ∧ decodeCmd 0b00000111#8 = .interp ∧ decodeCmd 0b00001000#8 = .parsea
      ∧ decodeCmd 0b00001001#8 = .parseb ∧ decodeCmd 0b00001010#8 = .parsec
      ∧ decodeCmd 0b00001011#8 = .enca := by decide
theorem test_decode_reserved :
    decodeCmd 0b00001100#8 = .reserved0c 0 ∧ decodeCmd 0b00001111#8 = .reserved0c 3
      ∧ decodeCmd 0b00010000#8 = .reserved10 0 ∧ decodeCmd 0b00011010#8 = .reserved10 10
      ∧ decodeCmd 0b00100000#8 = .reserved20 0 ∧ decodeCmd 0b00111111#8 = .reserved20 31
      ∧ decodeCmd 0b01000000#8 = .reserved40 0 ∧ decodeCmd 0b01011010#8 = .reserved40 26
      ∧ decodeCmd 0b10000000#8 = .reserved80 0 ∧ decodeCmd 0b11111111#8 = .reserved80 127 := by decide
theorem test_decode_end : decodeDesc 0b0000_0_000_00000000_0000000000000000#32 = .endList ⟨0, 0, 0, 0⟩ := by decide
theorem test_decode_bin : decodeDesc 0b0001_1_000_00000001_0000000000000001#32 = .bin ⟨1, 0, 1, 1⟩ := by decide
theorem test_decode_bin_reserved : decodeDesc 0b0001_0_101_00000010_0000000000000101#32 = .bin ⟨0, 5, 2, 5⟩ := by
  decide
theorem test_decode_bs : decodeDesc 0b0010_0_000_00000011_0000000000000010#32 = .bs ⟨0, 0, 3, 2⟩ := by decide
theorem test_decode_ascii : decodeDesc 0b0011_0_000_00000100_0000000000000011#32 = .ascii ⟨0, 0, 4, 3⟩ := by decide
theorem test_decode_bcd_date : decodeDesc 0b0100_0_000_00000011_0000000000000100#32 = .bcdDate ⟨0, 0, 3, 4⟩ := by
  decide
theorem test_decode_bcd : decodeDesc 0b0101_0_000_00000010_0000000000000110#32 = .bcd ⟨0, 0, 2, 6⟩ := by decide
theorem test_decode_content : decodeDesc 0b0110_0_000_00000000_0000000000000111#32 = .content ⟨0, 0, 0, 7⟩ := by
  decide
theorem test_decode_range : decodeDesc 0b0111_00000_100_0_011_0000000000001100#32 = .range ⟨0, 4, 0, 3, 12⟩ := by
  decide
theorem test_decode_range_reserved :
    decodeDesc 0b0111_10001_111_1_000_1000000000000000#32 = .range ⟨17, 7, 1, 0, 0x8000⟩ := by decide
theorem test_decode_unknown :
    decodeDesc 0b1000_0_000_00000000_0000000000001001#32 = .unknownTag 0 ⟨0, 0, 0, 9⟩
      ∧ decodeDesc 0b1111_0_000_00000000_0000000000001001#32 = .unknownTag 7 ⟨0, 0, 0, 9⟩ := by decide
theorem test_decode_rejects_widths : decode 16 0 = .error (.noFormat 16) ∧ decode 8 256 = .error (.tooWide 8) := by
  decide

/-! ### The test configuration (95_test_vectors.md section 0) and small states -/

/-- DROM of TC. -/
def drom : List Word :=
  [0x18010001, 0x60000007, 0, 0x10020005, 0x20030002, 0x7077000A, 0x7066000B, 0x7043000C, 0x30040003, 0x40030004,
    0x50020006, 0] ++ [0x60000007, 0x18010001, 0, 0x10010008, 0xF0000009, 0, 0x20010002, 0x7034000D, 0, 0x10040005]

/-- TC as data. -/
def tcData : Config where
  bufCap := 512
  txCap := 512
  drom := drom
  dict := [(0x0112345678, 0), (0x0200010203, 3)]
  keyB := .never
  keyC := .never
  layoutA := ⟨some ⟨7, 7⟩, none, some ⟨5, 5⟩, none, none⟩
  layoutB := ⟨none, none, none, none, none⟩
  layoutC := ⟨none, none, none, none, some ⟨0, 4⟩⟩
  ctrlEnc0 := 0x00
  ctrlEnc1 := 0x80
  placeholder := 0x2E
  hasEncoder := true

/-- TC. -/
def tc : WfConfig := ⟨tcData, by decide⟩

/-- The configuration of V5.12, with a KEY_B and a Protocol-A key beside it. -/
def tcKeyed : WfConfig :=
  ⟨{ tcData with
      keyB := .parts [.fCtrl]
      keyC := .parts [.fFunc]
      drom := drom.take 12 ++ [0x10020005, 0x10020008, 0]
      dict := [(0x11, 12), (0x43, 13), (0x0900010203, 14)] }, by decide⟩

/-- Reset under TC. -/
def s0 : State := State.resetWith tc

/-- BUF and BUF_LEN written by the host. -/
def load (bs : List Nat) : State :=
  { s0 with
    buf := Memory.ofBytes 0 (bs.map (BitVec.ofNat 8))
    op := { s0.op with bufLen := BitVec.ofNat 16 bs.length } }

/-- The same under V5.12's configuration. -/
def keyed (bs : List Nat) : State := { load bs with cfg := tcKeyed }

/-- OP_START, OP_END and OP_PTR written by the host. -/
def ranged (a b p : Half) (s : State) : State :=
  { s with op := { s.op with opStart := a, opEnd := b, opPtr := p } }

/-- OP_BYTE, OP_SPEC, OP_PTR and OP_PROTO written by the host. -/
def byteOps (b spec : Byte) (p : Half) (proto : BitVec 2) : State :=
  { s0 with op := { s0.op with opByte := b, opSpec := spec, opPtr := p, opProto := proto } }

/-- The state one step gives. -/
def after (s : State) (nbits w : Nat) : State :=
  match step (s.withFetchWord nbits w) with
  | .next t => t
  | .fault _ => s
  | .refused _ => s

/-- One descriptor word run over a payload by the next step. -/
def field (bs : List Nat) (w : Nat) : State :=
  after (ranged 0 (BitVec.ofNat 16 bs.length) 0 (load bs)) 32 w

/-- The frame of V6.1 and V5.1. -/
def frameA : List Nat := [0x68, 0x0F, 0, 0x80, 1, 5, 0x78, 0x56, 0x34, 0x12, 2, 0xAA, 0xBB, 1, 0x16]

/-- The frame of V5.2: a dictionary miss. -/
def frameAMiss : List Nat := [0x68, 0x0C, 0, 0, 0x7F, 0xFF, 0xD4, 0xC3, 0xB2, 0xA1, 0x68, 0x16]

/-- The smallest frame with addresses (R217). -/
def frameAAddr : List Nat :=
  [0x68, 0x18, 0, 0xA0, 0x11, 0x22, 0x33, 0x44, 0x55, 0x66, 0xA1, 0xA2] ++
    [0xA3, 0xA4, 0xA5, 0xA6, 9, 7, 3, 2, 1, 0, 0x99, 0x16]

/-- The frame of V5.6. -/
def frameB : List Nat :=
  [0x68, 0x12, 0, 0x43, 5, 1, 2, 3, 4, 5, 6, 0x10, 0xF9, 0xF7, 5, 1, 0, 0x12, 0xEF, 0x16]

/-- The smallest Protocol-B frame, of V5.8. -/
def frameBSmall : List Nat := [0x68, 0x0A, 0, 0, 0, 0xAB, 0, 0xD6, 0x95, 0x47, 0x0F, 0x16]

/-- The frame of V1.7. -/
def frameC : List Nat := [0x68, 0x20, 1, 0, 0, 0, 0, 0x68, 0x11, 4, 0x33, 0x33, 0x33, 0x33, 0xD2, 0x16]

/-- The frame of V5.12. -/
def frameCHit : List Nat :=
  [0x68, 0x20, 1, 0, 0, 0, 0, 0x68, 0x91, 4, 0x67, 0x45, 0x32, 0x34, 0x98, 0x16]

/-- The smallest Protocol-C frame, of V5.11. -/
def frameCSmall : List Nat := [0x68, 1, 2, 3, 4, 5, 6, 0x68, 0x1F, 0, 4, 0x16]

/-! ### One step of each instruction -/

/-- V8.3's NOP after a failed PARSEA. -/
theorem test_nop_clears_error :
    (after (after (load (frameA.set 0 0x69)) 8 0x08) 8 0x00).status = ⟨false, true, false, false, false, false, false⟩ := by
  decide
/-- V3.1. -/
theorem test_chksum_wraps : (after (ranged 0 3 0 (load [255, 255, 255])) 8 0x01).res.rSum = 0xFD := by decide
/-- V3.1. -/
theorem test_chksum_range_error :
    (after (ranged 0 4 0 (load [1, 2, 3])) 8 0x01).err = ⟨8, 1, 0, 4⟩ := by decide
/-- V2.3. -/
theorem test_crc16_check_value :
    (after (ranged 0 9 0 (load [0x31, 0x32, 0x33, 0x34, 0x35, 0x36, 0x37, 0x38, 0x39])) 8 0x02).res.rCrc
      = 0x906E := by decide
/-- V1.3. -/
theorem test_crc16_empty : (after (ranged 5 2 0 (load [1, 2])) 8 0x02).res.rCrc = 0xFFFF := by decide
/-- V2.1. -/
theorem test_tblrd_one : (after (byteOps 1 0 0 0) 8 0x03).res.rCrc = 0x1189 := by decide
/-- V2.2. -/
theorem test_tblrd_ff : (after (byteOps 0xFF 0 0 0) 8 0x03).res.rCrc = 0x0F78 := by decide
/-- V4.1. -/
theorem test_bitx_high : (after (byteOps 0xA1 0x3D 0 0) 8 0x04).res.rBits = 5 := by decide
/-- V4.2. -/
theorem test_bitx_reserved : (after (byteOps 0xA1 0x40 0 0) 8 0x04).err = ⟨6, 1, 0, 0⟩ := by decide
/-- V4.7. -/
theorem test_bitc_record :
    (after (byteOps 0xA1 0 4 0) 8 0x05).recs
      = [⟨4, 2, .bs 0xA1 [⟨10, 7, 7, 1⟩, ⟨11, 6, 6, 0⟩, ⟨12, 3, 4, 0⟩]⟩] := by decide
/-- V4.8. -/
theorem test_bitc_bad_range : (after (byteOps 1 0 18 0) 8 0x05).err = ⟨6, 1, 13, 19⟩ := by decide
/-- V4.4. -/
theorem test_dctl_c :
    ((after (byteOps 0x91 0 0 2) 8 0x06).res.ciFunc, (after (byteOps 0x91 0 0 2) 8 0x06).res.ciMask)
      = (0x11, 0b10000) := by decide
/-- V4.3. -/
theorem test_dctl_a :
    ((after (byteOps 0xA0 0 0 0) 8 0x06).res.ciDir, (after (byteOps 0xA0 0 0 0) 8 0x06).res.ciAddr) = (1, 1) := by
  decide
/-- V7.1. -/
theorem test_interp_length_content :
    (after (ranged 0 3 0 (load [2, 0xAA, 0xBB])) 8 0x07).recs
      = [⟨0, 1, .bin 1 2⟩, ⟨1, 7, .content [0xAA, 0xBB]⟩] := by decide
/-- V7.8. -/
theorem test_interp_unknown_tag :
    (after (ranged 0 2 15 (load [7, 1])) 8 0x07).err = ⟨5, 15, 9, 16⟩ := by decide
/-- V5.1. -/
theorem test_parsea_status :
    (after (load frameA) 8 0x08).status = ⟨false, true, false, true, false, false, true⟩ := by decide
/-- V5.5. -/
theorem test_parsea_end_marker : (after (load (frameA.set 14 0x17)) 8 0x08).err = ⟨2, 2, 13, 14⟩ := by decide
/-- V5.6; and with KEY_B the control byte, the payload 05 01 00 read by the list at 13 (R168, R228). -/
theorem test_parseb_miss_and_hit :
    (after (load frameB) 8 0x09).status = ⟨false, true, false, true, true, true, false⟩
      ∧ (after (keyed frameB) 8 0x09).recs = [⟨13, 8, .bin 2 0x0105⟩] := by decide
/-- V5.9. -/
theorem test_parseb_short : (after (load [0x68, 5, 0, 0x43, 5, 0, 0x16]) 8 0x09).err = ⟨2, 4, 6, 4⟩ := by decide
/-- V1.7 and V5.12. -/
theorem test_parsec_address_and_hit :
    (after (load frameC) 8 0x0A).addr0.map (fun cell => cell.2) = [0, 0, 0, 0, 1, 0x20]
      ∧ (after (keyed frameCHit) 8 0x0A).recs = [⟨12, 5, .bin 2 0x1234⟩, ⟨13, 8, .bin 2 0x01FF⟩] := by decide
/-- V5.13. -/
theorem test_parsec_start2 : (after (load (frameC.set 7 0x69)) 8 0x0A).err = ⟨2, 1, 14, 7⟩ := by decide
/-- What the encoder is given in V6.1. -/
def encIn : State :=
  { ranged 0 3 0 (load [2, 0xAA, 0xBB]) with
    seq := 5
    op := { (ranged 0 3 0 (load [2, 0xAA, 0xBB])).op with opDir := 1, opFunc := 1, opIdent := 0x12345678 } }
/-- V6.1. -/
theorem test_enca_frame :
    (after encIn 8 0x0B).tx = Memory.ofBytes 0 (frameA.map (BitVec.ofNat 8)) := by decide
/-- V6.1. -/
theorem test_enca_seq : (after encIn 8 0x0B).seq = 6 := by decide
/-- V8.1. -/
theorem test_reserved_opcodes :
    (after s0 8 0x0C).err = ⟨7, 0, 0x0C, 0⟩ ∧ (after s0 8 0x1A).err = ⟨7, 0, 0x1A, 0⟩
      ∧ (after s0 8 0x3A).err = ⟨7, 0, 0x3A, 0⟩ ∧ (after s0 8 0x5A).err = ⟨7, 0, 0x5A, 0⟩
      ∧ (after s0 8 0xFF).err = ⟨7, 0, 0xFF, 0⟩ := by decide
/-- V7.11. -/
theorem test_end_remainder : (field [0xAA] 0).res.rem = 1 := by decide
/-- R166. -/
theorem test_end_not_zero : (field [0xAA] 0x00000001).err = ⟨6, 2, 1, 0⟩ := by decide
/-- R168. -/
theorem test_bin_little_endian : (field [0x34, 0x12] 0x10020005).recs = [⟨0, 5, .bin 2 0x1234⟩] := by decide
/-- V7.6. -/
theorem test_bin_insufficient : (field [0x34] 0x10020005).err = ⟨3, 0, 5, 0⟩ := by decide
/-- R170: k = 0 still consumes one byte. -/
theorem test_bs_no_ranges : (field [0xA1] 0x20000002).recs = [⟨0, 2, .bs 0xA1 []⟩] := by decide
/-- R172, R173. -/
theorem test_ascii_placeholder :
    (field [0x1F, 0x20, 0x7E, 0x7F] 0x30040003).recs = [⟨0, 3, .ascii [0x2E, 0x20, 0x7E, 0x2E]⟩] := by decide
/-- R174. -/
theorem test_bcd_date : (field [0x24, 0x03, 0x15] 0x40030004).recs = [⟨0, 4, .bcdDate 20 2 4 0 3 1 5⟩] := by decide
/-- R175: nibbles are not validated. -/
theorem test_bcd_nibbles : (field [0x1F, 0x34] 0x50020006).recs = [⟨0, 6, .bcd 1 15 3 4⟩] := by decide
/-- R176. -/
theorem test_content_without_length : (field [0xAA] 0x60000007).err = ⟨4, 0, 7, 0⟩ := by decide
/-- R146 under V1.5's byte. -/
theorem test_range_value :
    (after (byteOps 0xA1 0 0 0) 32 0x7075000B).recs = [⟨0, 0, .bs 0xA1 [⟨11, 5, 7, 5⟩]⟩] := by decide
/-- R143. -/
theorem test_range_order : (after (byteOps 0xA1 0 0 0) 32 0x7034000D).err = ⟨6, 1, 13, 1⟩ := by decide
/-- R167. -/
theorem test_unknown_tag_sub : (field [0xAA] 0xA0000009).err = ⟨5, 10, 9, 0⟩ := by decide
/-- V8.2 and R285: BUF_LEN past BUF_CAP. -/
theorem test_buf_len_past_capacity :
    (after { s0 with op := { s0.op with bufLen := 513 } } 8 0x08).err = ⟨8, 3, 0, 513⟩ := by decide

/-! ### Witnesses: for each statement with hypotheses, and each of its clauses, a state that meets them -/

/-- A host access to come. -/
def facing (a : HostAccess) (s : State) : State := { s with inbox := [a] }

/-- A command is running. -/
def running (s : State) : State := { s with status := { s.status with busy := true } }

/-- Inside a walk over all of BUF, at a descriptor. -/
def walkingAt (bs : List Nat) (p : Half) : State :=
  { load bs with
    ism := .exec
    dp := p
    res := { (load bs).res with pEnd := BitVec.ofNat 16 bs.length } }

/-- The walk goes on with a fetch. -/
def goesOn : Stage → Bool
  | .cont t => t.ism == .fetch
  | .stop _ => false

/-- The walk is done. -/
def isDone : Stage → Bool
  | .cont t => t.ism == .done
  | .stop _ => false

/-- The walk has stopped on an error. -/
def hasStopped : Stage → Bool
  | .cont _ => false
  | .stop _ => true

/-- TC without the encoder. -/
def tcPlain : WfConfig := ⟨{ tcData with hasEncoder := false }, by decide⟩

/-- TC with a TXBUF of 14 bytes. -/
def tcShort : WfConfig := ⟨{ tcData with txCap := 14 }, by decide⟩

/-- TC with a TXBUF of 15 bytes. -/
def tcExact : WfConfig := ⟨{ tcData with txCap := 15 }, by decide⟩

theorem witness_rest : s0.AtRest := ⟨rfl, rfl, rfl, rfl⟩
theorem witness_rest_loaded (bs : List Nat) : (load bs).AtRest := ⟨rfl, rfl, rfl, rfl⟩

theorem witness_StepRunsCommand :
    (facing (.regWrite 0x00 0x08) (load frameA)).status.busy = false
      ∧ (facing (.regWrite 0x00 0x08) (load frameA)).inbox = .regWrite 0x00 0x08 :: [] := ⟨rfl, rfl⟩
theorem witness_WalkRunsDescriptor :
    (walkingAt [2, 3] 0).dromWord (walkingAt [2, 3] 0).dpIndex = some 0x18010001
      ∧ goesOn (walkTurn (walkingAt [2, 3] 0)) = true ∧ isDone (walkTurn (walkingAt [2, 3] 2)) = true
      ∧ hasStopped (walkTurn (walkingAt [2, 3] 1)) = true ∧ hasStopped (walkTurn (walkingAt [2, 3] 22)) = true := by
  decide
theorem witness_WalkRunsDescriptor_past_rom :
    (walkingAt [2, 3] 22).dromWord (walkingAt [2, 3] 22).dpIndex = none ∧ (walkingAt [2, 3] 22).dpPast = false
      ∧ (walkingAt [2, 3] 21).dromWord (walkingAt [2, 3] 21).dpIndex = some 0x10040005 := by decide
theorem witness_IdleStepWaits : s0.inbox = [] := rfl
theorem witness_BusyAccessStops :
    (running (facing (.regWrite 0x00 0x01) s0)).status.busy = true ∧ HostAccess.regWrite 0x00 0x01 ≠ .regRead 0x01
      ∧ (running (facing (.regRead 0x01) s0)).inbox = [.regRead 0x01] := by decide
theorem witness_RegisterWriteReadBack :
    (facing (.regWrite 0x1A 0x1FF) s0).status.busy = false ∧ (0x1A#8 : Byte) ≠ 0x00 ∧ (0x02#8 : Byte) ≠ 0x00
      ∧ operandWidth s0 0x1A = some 8 ∧ operandWidth s0 0x19 = some 32 ∧ operandWidth s0 0x02 = none
      ∧ operandWidth (State.resetWith tcPlain) 0x1A = none := by decide
theorem witness_HostReadsChangeNothing :
    (facing (.bufRead 511) s0).status.busy = false ∧ (HostAccess.bufRead 511).Allowed s0
      ∧ (HostAccess.txRead 511).Allowed s0 ∧ (HostAccess.addr0Read 15).Allowed s0
      ∧ (HostAccess.regRead 0xFF).Allowed s0 := by
  refine ⟨rfl, ⟨.inl rfl, ?_⟩, ⟨.inl rfl, rfl, ?_⟩, ⟨.inl rfl, trivial⟩, ⟨.inl rfl, trivial⟩⟩ <;> decide
theorem witness_HostReadsRecord :
    let s := after (byteOps 0xA1 0 4 0) 8 0x05
    s.status.busy = false ∧ 0 < s.res.recCnt.toNat ∧ (s.recs[0]?).isSome = true
      ∧ (HostAccess.recRead 0).Allowed s := by
  refine ⟨by decide, by decide, by decide, .inl (by decide), trivial⟩
theorem witness_HostReadsUnlisted :
    (0x00#8 : Byte).toNat = 0 ∧ 8 ≤ (0x08#8 : Byte).toNat ∧ (0x0F#8 : Byte).toNat ≤ 0x0F ∧ 0x1B ≤ (0x1B#8 : Byte).toNat
      ∧ (0x1F#8 : Byte).toNat ≤ 0x1F ∧ 0x40 ≤ (0x40#8 : Byte).toNat := by decide
theorem witness_BufWriteStores :
    s0.status.busy = false ∧ (511#16).toNat < s0.cfg.val.bufCap ∧ Memory.wf (load frameA).buf = true := by decide
theorem witness_StepKeepsInvariant :
    ((load frameA).withFetchWord 8 0x08).Inv ∧ ∃ t, step ((load frameA).withFetchWord 8 0x08) = .next t := by
  refine ⟨⟨⟨rfl, rfl, rfl, rfl⟩, ?_, ⟨fun _ => rfl, (nomatch ·)⟩, (nomatch ·), ?_, (nomatch ·), (nomatch ·)⟩,
    ⟨_, rfl⟩⟩
  · unfold State.MemoryOk; decide
  · unfold State.LengthOk; positivity
theorem witness_InstructionsLeaveHostInputs : ∃ t, exec .enca encIn = .next t := ⟨_, rfl⟩
theorem witness_OnlyParseMovesFsm :
    s0.AtRest ∧ ¬ IsParse .interp ∧ ¬ IsParse (.endList ⟨0, 0, 0, 0⟩) ∧ ∃ t, exec .interp s0 = .next t :=
  ⟨witness_rest, by simp [IsParse], by simp [IsParse], _, rfl⟩
theorem witness_OnlyInterpreterMovesItsRegisters :
    s0.AtRest ∧ IsCommand .bitc ∧ ¬ IsParse .bitc ∧ Instr.bitc ≠ .interp ∧ ∃ t, exec .bitc s0 = .next t :=
  ⟨witness_rest, ⟨0x05, rfl⟩, by simp [IsParse], by decide, ⟨_, rfl⟩⟩
theorem witness_SeqCountsSuccessfulEncodes :
    (after encIn 8 0x0B).status.err = false ∧ ∃ t, exec .enca encIn = .next t := ⟨by decide, _, rfl⟩
theorem witness_EveryCommandEnds : IsCommand .parsea ∧ IsCommand (.reserved80 127) := ⟨⟨0x08, rfl⟩, ⟨0xFF, rfl⟩⟩
theorem witness_FlagsBelongToTheirCommands :
    IsCommand .chksum ∧ ¬ IsParse .chksum ∧ Instr.chksum ≠ .interp ∧ Instr.chksum ≠ .bitc
      ∧ ∃ t, exec .chksum s0 = .next t :=
  ⟨⟨0x01, rfl⟩, by simp [IsParse], by decide, by decide, _, rfl⟩
theorem witness_FailedOwnersClearRecValid :
    IsParse .parsea ∧ ∃ t, exec .parsea (load []) = .next t ∧ t.status.err = true :=
  ⟨.inl rfl, _, rfl, by decide⟩
theorem witness_BytesPastBufLenNeverMatter :
    IsCommand .chksum ∧ (∀ a, a < (load [1, 2, 3]).op.bufLen.toNat →
      ({ load [1, 2, 3] with buf := (load [1, 2, 3]).buf ++ [(3, 9#8)] } : State).bufByte a
        = (load [1, 2, 3]).bufByte a) := by
  refine ⟨⟨0x01, rfl⟩, fun a h => ?_⟩
  have h3 : a < 3 := h
  interval_cases a <;> rfl
theorem witness_InterpReadsOnlyItsRange :
    let s := ranged 1 3 0 (load [9, 1, 0xAA, 8])
    ∀ a, s.op.opStart.toNat ≤ a → a < s.op.opEnd.toNat →
      ({ s with buf := (load [7, 1, 0xAA, 6]).buf } : State).bufByte a = s.bufByte a := by
  intro s a h1 h2
  have h1' : 1 ≤ a := h1
  have h2' : a < 3 := h2
  interval_cases a <;> rfl
theorem witness_BufLenPastCapacity :
    let s := { s0 with op := { s0.op with bufLen := 513, opEnd := 1 } }
    s.AtRest ∧ s.cfg.val.bufCap < s.op.bufLen.toNat ∧ s.op.opStart.toNat < s.op.opEnd.toNat
      ∧ s.cfg.val.hasEncoder = true := ⟨⟨rfl, rfl, rfl, rfl⟩, by decide, by decide, rfl⟩
theorem witness_BufLenPastCapacity_empty :
    let s := { s0 with op := { s0.op with bufLen := 513 } }
    s.AtRest ∧ s.cfg.val.bufCap < s.op.bufLen.toNat ∧ s.op.opEnd.toNat ≤ s.op.opStart.toNat :=
  ⟨⟨rfl, rfl, rfl, rfl⟩, by decide, by decide⟩
theorem witness_ReservedOpcodesRaise :
    s0.AtRest ∧ 0x0C ≤ (0x0C#8 : Byte).toNat ∧ (State.resetWith tcPlain).AtRest
      ∧ (State.resetWith tcPlain).cfg.val.hasEncoder = false :=
  ⟨witness_rest, by decide, ⟨rfl, rfl, rfl, rfl⟩, rfl⟩
theorem witness_ChksumResult_and_Crc16Result :
    (ranged 3 3 0 (load [1, 2, 3])).op.opEnd.toNat ≤ (ranged 3 3 0 (load [1, 2, 3])).op.opStart.toNat
      ∧ RangeFits (ranged 0 3 0 (load [1, 2, 3])) ∧ RangeFits (ranged 2 3 0 (load [1, 2, 3])) := by decide
theorem witness_ChksumResult_and_Crc16Result_error :
    let s := ranged 0 4 0 (load [1, 2, 3])
    s.AtRest ∧ s.op.opStart.toNat < s.op.opEnd.toNat ∧ s.op.bufLen.toNat < s.op.opEnd.toNat
      ∧ s.op.bufLen.toNat ≤ s.cfg.val.bufCap := ⟨⟨rfl, rfl, rfl, rfl⟩, by decide, by decide, by decide⟩
theorem witness_ChecksumSplits : 0 ≤ 2 ∧ 2 ≤ 5 ∧ List.Perm [1#8, 2#8] [2#8, 1#8] :=
  ⟨by decide, by decide, List.Perm.swap 2#8 1#8 []⟩
theorem witness_CrcResidue : [0x00#8] ≠ [] := by decide
theorem witness_BitxResult :
    (byteOps 0xA1 0x3F 0 0).op.opSpec.toNat < 64
      ∧ (byteOps 0xA1 0x3F 0 0).op.opSpec.toNat % 8 ≤ (byteOps 0xA1 0x3F 0 0).op.opSpec.toNat / 8
      ∧ 64 ≤ (byteOps 0xA1 0x40 0 0).op.opSpec.toNat
      ∧ (byteOps 0xA1 0x1C 0 0).op.opSpec.toNat / 8 < (byteOps 0xA1 0x1C 0 0).op.opSpec.toNat % 8 := by decide
/-- The three ranges of V1.5. -/
def threeRanges : List RangeFields := [⟨0, 7, 0, 7, 10⟩, ⟨0, 6, 0, 6, 11⟩, ⟨0, 4, 0, 3, 12⟩]
theorem witness_BitcResult :
    ((byteOps 0xA1 0 4 0).dromWord (byteOps 0xA1 0 4 0).op.opPtr.toNat).map decodeDesc = some (.bs ⟨0, 0, 3, 2⟩)
      ∧ Head.plain ⟨0, 0, 3, 2⟩ = true ∧ threeRanges.length = (3#8).toNat
      ∧ RangesAt (byteOps 0xA1 0 4 0) 4 threeRanges := by decide
theorem witness_BitcResult_past_rom :
    (byteOps 0xA1 0 22 0).AtRest ∧ (byteOps 0xA1 0 22 0).dromWord (byteOps 0xA1 0 22 0).op.opPtr.toNat = none :=
  ⟨⟨rfl, rfl, rfl, rfl⟩, by decide⟩
theorem witness_BitcResult_not_bs :
    (byteOps 0xA1 0 3 0).AtRest ∧ (byteOps 0xA1 0 3 0).dromWord (byteOps 0xA1 0 3 0).op.opPtr.toNat = some 0x10020005
      ∧ ∀ h : Head, decodeDesc 0x10020005 = .bs h → h.plain = false := by
  refine ⟨⟨rfl, rfl, rfl, rfl⟩, by decide, fun h hd => ?_⟩
  have hb : decodeDesc 0x10020005 = .bin ⟨0, 0, 2, 5⟩ := by decide
  rw [hb] at hd
  nomatch hd
/-- A DROM whose bit-composites run into a word of another kind and past its end. -/
def tcBroken : WfConfig := ⟨{ tcData with drom := [0x20020002, 0x7077000A, 0x10020005, 0x20010002] }, by decide⟩
theorem witness_BitcResult_bad_range :
    let s := { byteOps 0xA1 0 0 0 with cfg := tcBroken }
    s.AtRest ∧ (s.dromWord 0).map decodeDesc = some (.bs ⟨0, 0, 2, 2⟩)
      ∧ RangeFails s 0 2 [⟨0, 7, 0, 7, 10⟩] ⟨6, 2, 5, 2⟩
      ∧ (s.dromWord 3).map decodeDesc = some (.bs ⟨0, 0, 1, 2⟩) ∧ RangeFails s 3 1 [] ⟨6, 3, 0, 4⟩
      ∧ (s0.dromWord 18).map decodeDesc = some (.bs ⟨0, 0, 1, 2⟩) ∧ RangeFails s0 18 1 [] ⟨6, 1, 13, 19⟩ :=
  ⟨⟨rfl, rfl, rfl, rfl⟩, by decide, by decide, by decide, by decide, by decide, by decide⟩
theorem witness_DctlResult :
    (byteOps 0xA0 0 0 0).op.opProto = 0 ∧ (byteOps 0xA0 0 0 1).op.opProto = 1 ∧ (byteOps 0xA0 0 0 2).op.opProto = 2
      ∧ (byteOps 0xA0 0 0 3).AtRest ∧ (byteOps 0xA0 0 0 3).op.opProto = 3 :=
  ⟨rfl, rfl, rfl, ⟨rfl, rfl, rfl, rfl⟩, rfl⟩
theorem witness_InterpRangeError :
    (ranged 2 1 0 (load [1, 2, 3])).AtRest
      ∧ (ranged 2 1 0 (load [1, 2, 3])).op.bufLen.toNat ≤ (ranged 2 1 0 (load [1, 2, 3])).cfg.val.bufCap
      ∧ (ranged 2 1 0 (load [1, 2, 3])).op.opEnd.toNat < (ranged 2 1 0 (load [1, 2, 3])).op.opStart.toNat
      ∧ (ranged 0 4 0 (load [1, 2, 3])).op.bufLen.toNat < (ranged 0 4 0 (load [1, 2, 3])).op.opEnd.toNat :=
  ⟨⟨rfl, rfl, rfl, rfl⟩, by decide, by decide, by decide⟩
theorem witness_InterpEmptyList :
    RangeAllowed (ranged 1 1 2 (load [0xAA])) ∧ RangeAllowed (ranged 0 1 11 (load [0xAA]))
      ∧ (ranged 1 1 2 (load [0xAA])).dromWord (ranged 1 1 2 (load [0xAA])).op.opPtr.toNat = some 0#32 := by decide
theorem witness_InterpLengthPrefixed :
    let s := ranged 0 3 0 (load [2, 0xAA, 0xBB])
    RangeAllowed s ∧ s.op.opStart.toNat < s.op.opEnd.toNat
      ∧ (s.dromWord s.op.opPtr.toNat).map decodeDesc = some (.bin ⟨1, 0, 1, 1⟩)
      ∧ (s.dromWord (s.op.opPtr.toNat + 1)).map decodeDesc = some (.content ⟨0, 0, 0, 7⟩)
      ∧ (s.dromWord (s.op.opPtr.toNat + 2)).map decodeDesc = some (.endList ⟨0, 0, 0, 0⟩)
      ∧ 0 + 1 + (s.bufByte 0).toNat ≤ s.op.opEnd.toNat
      ∧ s.op.opEnd.toNat < 0 + 1 + ((ranged 0 3 0 (load [3, 0xAA, 0xBB])).bufByte 0).toNat := by decide
theorem witness_EndWord :
    (⟨0, 0, 0, 0⟩ : Head) = ⟨0, 0, 0, 0⟩ ∧ (⟨0, 0, 0, 1⟩ : Head) ≠ ⟨0, 0, 0, 0⟩ ∧ s0.dpPast = false := by decide
theorem witness_BinField :
    (⟨1, 0, 2, 5⟩ : Head).rsv = 0 ∧ (walkingAt [1, 2] 3).dpPast = false
      ∧ (walkingAt [1, 2] 3).cur.toNat + (2#8).toNat ≤ (walkingAt [1, 2] 3).res.pEnd.toNat
      ∧ (walkingAt [1, 2] 3).cur.toNat + (0#8).toNat ≤ (walkingAt [1, 2] 3).res.pEnd.toNat := by decide
theorem witness_BitCompositeField :
    Head.plain ⟨0, 0, 3, 2⟩ = true ∧ (walkingAt [0xA1] 4).dpPast = false ∧ threeRanges.length = (3#8).toNat
      ∧ RangesAt (walkingAt [0xA1] 4) (walkingAt [0xA1] 4).dpIndex threeRanges
      ∧ (walkingAt [0xA1] 4).cur.toNat + 1 ≤ (walkingAt [0xA1] 4).res.pEnd.toNat := by decide
theorem witness_BitCompositeField_bad_range :
    let s := { walkingAt [0xA1] 0 with cfg := tcBroken }
    let t := { walkingAt [0xA1] 3 with cfg := tcBroken }
    s.dpPast = false ∧ s.cur.toNat + 1 ≤ s.res.pEnd.toNat
      ∧ RangeFails s s.dpIndex 2 [⟨0, 7, 0, 7, 10⟩] ⟨6, 2, 5, 2⟩ ∧ RangeFails t t.dpIndex 1 [] ⟨6, 3, 0, 4⟩
      ∧ RangeFails (walkingAt [0xA1] 18) 18 1 [] ⟨6, 1, 13, 19⟩ := by decide
theorem witness_AsciiField :
    Head.plain ⟨0, 0, 4, 3⟩ = true ∧ (walkingAt [1, 2, 3, 4] 8).dpPast = false
      ∧ (walkingAt [1, 2, 3, 4] 8).cur.toNat + (4#8).toNat ≤ (walkingAt [1, 2, 3, 4] 8).res.pEnd.toNat := by decide
theorem witness_BcdDateField :
    Head.plain ⟨0, 0, 3, 4⟩ = true ∧ (⟨0, 0, 3, 4⟩ : Head).size = 3 ∧ (walkingAt [1, 2, 3] 9).dpPast = false
      ∧ (walkingAt [1, 2, 3] 9).cur.toNat + 3 ≤ (walkingAt [1, 2, 3] 9).res.pEnd.toNat := by decide
theorem witness_BcdField :
    Head.plain ⟨0, 0, 2, 6⟩ = true ∧ (⟨0, 0, 2, 6⟩ : Head).size = 2 ∧ (walkingAt [1, 2] 10).dpPast = false
      ∧ (walkingAt [1, 2] 10).cur.toNat + 2 ≤ (walkingAt [1, 2] 10).res.pEnd.toNat := by decide
theorem witness_ContentField :
    let s := { walkingAt [1, 2] 1 with lenVld := true, lenVal := 2 }
    Head.plain ⟨0, 0, 0, 7⟩ = true ∧ (⟨0, 0, 0, 7⟩ : Head).size = 0 ∧ s.dpPast = false ∧ s.lenVld = true
      ∧ s.cur.toNat + s.lenVal ≤ s.res.pEnd.toNat ∧ (walkingAt [1, 2] 1).lenVld = false := by decide
theorem witness_RangeWord :
    let s := { walkingAt [1] 4 with comp := some ⟨0xA1, 5, []⟩ }
    s.comp = some ⟨0xA1, 5, []⟩ ∧ (⟨0, 4, 0, 4, 1⟩ : RangeFields).start.toNat ≤ (⟨0, 4, 0, 4, 1⟩ : RangeFields).stop.toNat
      ∧ (5 : Nat) < 65536 ∧ (⟨1, 4, 0, 3, 1⟩ : RangeFields).rsvHi ≠ 0 ∧ (⟨0, 4, 1, 3, 1⟩ : RangeFields).rsvLo ≠ 0
      ∧ (⟨0, 3, 0, 4, 1⟩ : RangeFields).stop.toNat < (⟨0, 3, 0, 4, 1⟩ : RangeFields).start.toNat
      ∧ (walkingAt [1] 4).comp = none ∧ (walkingAt [1] 4).dpPast = false := by decide
theorem witness_UnknownTagWord : (walkingAt [1] 16).dpPast = false := rfl
theorem witness_MalformedHeadWords :
    Instr.wf (.endList ⟨0, 0, 0, 1⟩) = false ∧ Instr.wf (.bin ⟨0, 1, 1, 1⟩) = false ∧ Instr.wf (.bs ⟨1, 0, 0, 1⟩) = false
      ∧ Instr.wf (.ascii ⟨1, 0, 1, 1⟩) = false ∧ Instr.wf (.bcdDate ⟨0, 0, 2, 1⟩) = false
      ∧ Instr.wf (.bcd ⟨0, 0, 3, 1⟩) = false ∧ Instr.wf (.content ⟨0, 0, 1, 1⟩) = false ∧ s0.dpPast = false := by
  decide
theorem witness_InsufficientDataWords :
    let s := { walkingAt [1] 1 with lenVld := true, lenVal := 2 }
    Instr.wf (.bin ⟨0, 0, 2, 5⟩) = true ∧ Instr.wf (.bs ⟨0, 0, 3, 2⟩) = true ∧ Instr.wf (.ascii ⟨0, 0, 2, 3⟩) = true
      ∧ Instr.wf (.bcdDate ⟨0, 0, 3, 4⟩) = true ∧ Instr.wf (.bcd ⟨0, 0, 2, 6⟩) = true
      ∧ Instr.wf (.content ⟨0, 0, 0, 7⟩) = true ∧ s.lenVld = true ∧ s.res.pEnd.toNat < s.cur.toNat + 2
      ∧ (walkingAt [] 4).res.pEnd.toNat < (walkingAt [] 4).cur.toNat + 1 := by decide
theorem witness_ParseaWithoutAddress : FrameA (load frameAMiss) ∧ Misses (load frameAMiss) (keyAt (load frameAMiss) 4) := by
  decide
theorem witness_ParseaWithAddress : FrameAAddr (load frameAAddr) ∧ Misses (load frameAAddr) (keyAt (load frameAAddr) 16) := by
  decide
/-- PARSEA's delegated payload. -/
def delegatedA (s : State) : Stage := delegated s (some (keyAt s (funcAt s))) (payloadStateA s)
/-- PARSEB's delegated payload. -/
def delegatedB (s : State) : Stage := delegated s (keyOf s.cfg.val.keyB (viewB s)) (payloadStateB s)
/-- PARSEC's delegated payload. -/
def delegatedC (s : State) : Stage := delegated s (keyOf s.cfg.val.keyC (viewC s)) (payloadStateC s)
theorem witness_ParseaHit :
    BodyA (load frameA) ∧ EndMark (load frameA) ∧ isDone (delegatedA (load frameA)) = true
      ∧ BodyA (load frameAMiss) ∧ EndMark (load frameAMiss) ∧ hasStopped (delegatedA (load frameAMiss)) = false
      ∧ BodyA (load (frameA.set 10 3)) ∧ hasStopped (delegatedA (load (frameA.set 10 3))) = true := by decide
theorem witness_ParseaHit_address :
    BodyA (keyed frameAAddr) ∧ HasAddr (keyed frameAAddr) ∧ EndMark (keyed frameAAddr)
      ∧ isDone (delegatedA (keyed frameAAddr)) = true
      ∧ BodyA (load (frameAAddr.set 16 2)) ∧ hasStopped (delegatedA (load (frameAAddr.set 16 2))) = true := by decide
theorem witness_ParseaHit_endMark :
    BodyA (load (frameA.set 14 0x17)) ∧ ¬ EndMark (load (frameA.set 14 0x17)) ∧ (load (frameA.set 14 0x17)).AtRest
      ∧ hasStopped (delegatedA (load (frameA.set 14 0x17))) = false :=
  ⟨by decide, by decide, witness_rest_loaded _, by decide⟩
theorem witness_ParsebResult :
    FrameB (load frameB) ∧ found (load frameB) (keyOf (load frameB).cfg.val.keyB (viewB (load frameB))) = none
      ∧ FrameB (keyed frameBSmall)
      ∧ found (keyed frameBSmall) (keyOf (keyed frameBSmall).cfg.val.keyB (viewB (keyed frameBSmall))) = none := by
  decide
theorem witness_ParsebResult_hit :
    BodyB (keyed frameB) ∧ EndMark (keyed frameB) ∧ isDone (delegatedB (keyed frameB)) = true
      ∧ BodyB (keyed (frameBSmall.set 3 0x43)) ∧ hasStopped (delegatedB (keyed (frameBSmall.set 3 0x43))) = true := by
  decide
theorem witness_ParsebResult_endMark :
    BodyB (load (frameB.set 19 0x17)) ∧ ¬ EndMark (load (frameB.set 19 0x17)) ∧ (load (frameB.set 19 0x17)).AtRest
      ∧ hasStopped (delegatedB (load (frameB.set 19 0x17))) = false :=
  ⟨by decide, by decide, witness_rest_loaded _, by decide⟩
theorem witness_ParsecResult :
    FrameC (load frameC) ∧ found (load frameC) (keyOf (load frameC).cfg.val.keyC (viewC (load frameC))) = none
      ∧ FrameC (keyed frameCSmall)
      ∧ found (keyed frameCSmall) (keyOf (keyed frameCSmall).cfg.val.keyC (viewC (keyed frameCSmall))) = none := by
  decide
theorem witness_ParsecResult_hit :
    BodyC (keyed frameCHit) ∧ EndMark (keyed frameCHit) ∧ isDone (delegatedC (keyed frameCHit)) = true
      ∧ BodyC (keyed (frameCSmall.set 8 0x11)) ∧ hasStopped (delegatedC (keyed (frameCSmall.set 8 0x11))) = true := by
  decide
theorem witness_ParsecResult_endMark :
    BodyC (load (frameC.set 15 0x61)) ∧ ¬ EndMark (load (frameC.set 15 0x61)) ∧ (load (frameC.set 15 0x61)).AtRest
      ∧ hasStopped (delegatedC (load (frameC.set 15 0x61))) = false :=
  ⟨by decide, by decide, witness_rest_loaded _, by decide⟩
theorem witness_SmallestFramesA :
    frameN (load frameA) ≤ (load frameA).cfg.val.bufCap ∧ (after (load frameA) 8 0x08).status.err = false := by decide
theorem witness_SmallestFramesA_short :
    let s := load [0x68, 0x06, 0, 0, 0, 0x16]
    s.bufByte 0 = 0x68 ∧ leNum s 1 2 = frameN s ∧ 3 ≤ frameN s ∧ frameN s < 12
      ∧ (5 < frameN s → ctlField (s.bufByte 3) s.cfg.val.layoutA.addr = 0) := by decide
theorem witness_SmallestFramesA_bounds :
    leNum (load [0x68, 3, 0]) 1 2 = frameN (load [0x68, 3, 0])
      ∧ leNum (load [0x68, 11, 0, 0, 1, 5, 0x78, 0x56, 0x34, 0, 0x16]) 1 2
          = frameN (load [0x68, 11, 0, 0, 1, 5, 0x78, 0x56, 0x34, 0, 0x16])
      ∧ ctlField ((load [0x68, 11, 0, 0, 1, 5, 0x78, 0x56, 0x34, 0, 0x16]).bufByte 3) tcData.layoutA.addr = 0 := by
  decide
theorem witness_ParseStartErrors :
    IsParse .parsec ∧ (load []).AtRest ∧ frameN (load []) ≤ (load []).cfg.val.bufCap ∧ frameN (load []) = 0
      ∧ (load [0x69]).bufByte 0 ≠ 0x68 :=
  ⟨.inr (.inr rfl), witness_rest_loaded _, by decide, by decide, by decide⟩
/-- A frame cut to n bytes, with its length field set to l. -/
def cut (bs : List Nat) (n l : Nat) : State := load (((bs.take n).set 1 l).set 2 0)
theorem witness_ParseStartErrors_a :
    headFaultA (load []) = some ⟨2, 4, 1, 0⟩ ∧ headFaultA (load [0x69]) = some ⟨2, 1, 1, 0⟩
      ∧ headFaultA (load [0x68, 2]) = some ⟨2, 4, 2, 1⟩ ∧ headFaultA (cut frameA 14 15) = some ⟨2, 3, 2, 1⟩
      ∧ headFaultA (cut frameA 5 5) = some ⟨2, 4, 3, 3⟩ ∧ headFaultA (cut frameAAddr 11 11) = some ⟨2, 4, 4, 4⟩
      ∧ headFaultA (cut frameAAddr 17 17) = some ⟨2, 4, 5, 10⟩ ∧ headFaultA (cut frameAAddr 18 18) = some ⟨2, 4, 9, 16⟩
      ∧ headFaultA (cut frameA 6 6) = some ⟨2, 4, 9, 4⟩ ∧ headFaultA (cut frameA 7 7) = some ⟨2, 4, 10, 5⟩
      ∧ headFaultA (cut frameA 11 11) = some ⟨2, 4, 11, 6⟩ := by decide
theorem witness_ParseStartErrors_b :
    headFaultB (load [0x69]) = some ⟨2, 1, 1, 0⟩ ∧ headFaultB (load [0x68, 0]) = some ⟨2, 4, 2, 1⟩
      ∧ headFaultB (cut frameBSmall 12 12) = some ⟨2, 3, 2, 1⟩ ∧ headFaultB (cut frameBSmall 6 4) = some ⟨2, 4, 3, 3⟩
      ∧ headFaultB (cut frameBSmall 7 5) = some ⟨2, 4, 6, 4⟩ ∧ headFaultB (cut frameBSmall 8 6) = some ⟨2, 4, 4, 5⟩
      ∧ headFaultB (cut frameBSmall 9 7) = some ⟨2, 4, 7, 6⟩
      ∧ headFaultB (cut frameBSmall 11 9) = some ⟨2, 4, 8, 7⟩ := by decide
theorem witness_ParseStartErrors_c :
    headFaultC (load [0x69]) = some ⟨2, 1, 1, 0⟩ ∧ headFaultC (load (frameC.take 6)) = some ⟨2, 4, 4, 1⟩
      ∧ headFaultC (load (frameC.take 7)) = some ⟨2, 4, 14, 7⟩
      ∧ headFaultC (load (frameC.set 7 0x69)) = some ⟨2, 1, 14, 7⟩
      ∧ headFaultC (load (frameC.take 8)) = some ⟨2, 4, 3, 8⟩ ∧ headFaultC (load (frameC.take 9)) = some ⟨2, 4, 2, 9⟩
      ∧ headFaultC (load (frameC.set 9 5)) = some ⟨2, 3, 2, 9⟩ := by decide
theorem witness_EncaResult :
    encIn.cfg.val.hasEncoder = true ∧ encIn.op.bufLen.toNat ≤ encIn.cfg.val.bufCap ∧ RangeAllowed encIn
      ∧ 12 + 3 ≤ ({ encIn with cfg := tcExact } : State).cfg.val.txCap
      ∧ ({ encIn with cfg := tcShort } : State).cfg.val.txCap < 12 + 3
      ∧ RangeAllowed { encIn with cfg := tcShort } := by decide
theorem witness_EncaResult_range :
    (ranged 2 1 0 (load [1, 2, 3])).AtRest
      ∧ (ranged 2 1 0 (load [1, 2, 3])).op.opEnd.toNat < (ranged 2 1 0 (load [1, 2, 3])).op.opStart.toNat
      ∧ (ranged 1 4 0 (load [1, 2, 3])).op.bufLen.toNat < (ranged 1 4 0 (load [1, 2, 3])).op.opEnd.toNat :=
  ⟨⟨rfl, rfl, rfl, rfl⟩, by decide, by decide⟩
/-- The state after V6.1's ENCA. -/
def encOut : State :=
  match exec .enca encIn with
  | .next t => t
  | .fault _ => encIn
  | .refused _ => encIn
theorem witness_EncodeThenParse :
    encIn.cfg.val.hasEncoder = true ∧ exec .enca encIn = .next encOut ∧ encOut.status.err = false
      ∧ (load frameA).op.bufLen = encOut.res.txLen
      ∧ (load frameA).op.bufLen.toNat ≤ (load frameA).cfg.val.bufCap ∧ (load frameA).cfg = encIn.cfg
      ∧ (∀ i, i < encOut.res.txLen.toNat → (load frameA).bufByte i = encOut.txByte i) := by
  refine ⟨rfl, rfl, by decide, by decide, by decide, rfl, fun i h => ?_⟩
  have h15 : encOut.res.txLen.toNat = 15 := by decide
  rw [h15] at h
  interval_cases i <;> decide
theorem witness_EncodeThenParse_miss :
    Misses { encIn with op := { encIn.op with opFunc := 0x7F } } (0x7F * 2 ^ 32 + 0x12345678) := by decide

end Sys2Proof.Tests
end

section
/-! SUPPORT. How a stage of pseudocode can end, as one judgement with its rules, and what the interpreter writes: one
descriptor, one turn of the walk, and a whole interpretation, which always ends (R162). -/

namespace Sys2Proof.Machine

open Sys2Proof.Spec

/-! ### How a stage can end -/

/-- A stage goes on in a state of which `goes` holds, or ends by a `raise` in a state of which `raises` holds. -/
def Stage.Meets (goes raises : State → Prop) : Stage → Prop
  | .cont t => goes t
  | .stop t => ∃ x sub field off u, raises u ∧ t = raise x sub field off u

section
variable {P Q E F : State → Prop}

theorem Stage.Meets.raiseStage {s : State} {x : ErrName} {sub : Byte} {field : Half} {off : Nat} (h : E s) :
    (raiseStage x sub field off s).Meets P E :=
  ⟨x, sub, field, off, s, h, rfl⟩

theorem Stage.Meets.mono {x : Stage} (hx : x.Meets P E) (hP : ∀ t, P t → Q t) (hE : ∀ t, E t → F t) :
    x.Meets Q F := by
  cases x with
  | cont t => exact hP t hx
  | stop t =>
    obtain ⟨x, sub, field, off, u, hu, ht⟩ := hx
    exact ⟨x, sub, field, off, u, hE u hu, ht⟩

theorem Stage.Meets.bind {x : Stage} {f : State → Stage} (hx : x.Meets P E) (hf : ∀ t, P t → (f t).Meets Q E) :
    (x.bind f).Meets Q E := by
  cases x with
  | cont t => exact hf t hx
  | stop t => exact hx

/-- A check: it raises where it stands, or the rest runs knowing that it passed. -/
theorem Stage.Meets.guard {c : Prop} [Decidable c] {s : State} {x : ErrName} {sub : Byte} {field : Half}
    {off : Nat} {y : Stage} (hs : E s) (hy : ¬ c → y.Meets P E) :
    (if c then Machine.raiseStage x sub field off s else y).Meets P E := by
  split
  · exact .raiseStage hs
  · exact hy ‹_›

end

theorem bufCheck_meets (s : State) :
    (bufCheck s).Meets (fun t => t = s ∧ s.frameLen ≤ s.cfg.val.bufCap) (· = s) :=
  .guard rfl fun h => ⟨rfl, by omega⟩

theorem need_meets (name : Half) (n : Nat) (s : State) :
    (need name n s).Meets (fun t => t = s ∧ s.cur.toNat + n ≤ s.res.pEnd.toNat) (· = s) :=
  .guard rfl fun h => ⟨rfl, by omega⟩

/-! ### Frames

A frame is a view of the state that erases what a stage may write: that the view is unchanged says what the stage
left alone. -/

/-- What two states share under a frame `F`, they share under every view `G` that sees no more than `F` does. -/
theorem view_eq {α : Type} {F : State → State} (G : State → α) {s t : State} (h : F t = F s)
    (hG : ∀ u, G (F u) = G u := by intro u; rfl) : G t = G s := by
  rw [← hG t, h, hG s]

/-! ### What range words write (R146) -/

/-- The state but for the composite being decoded. -/
def State.besideComp (s : State) : State := { s with comp := none }

theorem rangeTurn_meets (r : RangeFields) (c : Composite) (s : State) :
    (rangeTurn r c s).Meets
      (fun t => t.besideComp = s.besideComp ∧ ∃ d, t.comp = some d ∧ d.pos = c.pos + 1) (· = s) :=
  .guard rfl fun _ => .guard rfl fun _ => ⟨rfl, _, rfl, rfl⟩

theorem rangeBody_meets (r : RangeFields) (s : State) :
    (rangeBody r s).Meets
      (fun t => t.besideComp = s.besideComp ∧ ∃ c d, s.comp = some c ∧ t.comp = some d ∧ d.pos = c.pos + 1)
      (· = s) := by
  unfold rangeBody
  split
  · next c hc => exact (rangeTurn_meets r c s).mono (fun t ⟨hb, d, hd, hp⟩ => ⟨hb, c, d, hc, hd, hp⟩) fun _ h => h
  · exact .raiseStage rfl

theorem dromWord_lt {s : State} {i : Nat} {w : Word} (h : s.dromWord i = some w) : i < s.dromSize :=
  (List.getElem?_eq_some_iff.mp h).1

/-- One range word is fetched inside the DROM (R145) and moves the position by one. -/
theorem rangeFetch_meets {s : State} {c : Composite} (hc : s.comp = some c) :
    (rangeFetch s).Meets
      (fun t => t.besideComp = s.besideComp ∧ c.pos < s.dromSize ∧ ∃ d, t.comp = some d ∧ d.pos = c.pos + 1)
      (· = s) := by
  unfold rangeFetch
  simp only [hc]
  split
  · exact .raiseStage rfl
  · next w hw =>
    split
    · refine (rangeBody_meets _ s).mono (fun t ht => ?_) fun _ h => h
      obtain ⟨hb, c', d, hc', hd, hp⟩ := ht
      obtain rfl : c = c' := Option.some.inj (hc.symm.trans hc')
      exact ⟨hb, dromWord_lt hw, d, hd, hp⟩
    · exact .raiseStage rfl

theorem dromSize_of_besideComp {s t : State} (h : t.besideComp = s.besideComp) : t.dromSize = s.dromSize :=
  view_eq State.dromSize h

/-- k range words stand inside the DROM and write nothing but the composite. -/
theorem rangeWords_meets (k : Nat) {s : State} {c : Composite} (hc : s.comp = some c) :
    (rangeWords k s).Meets
      (fun t => t.besideComp = s.besideComp ∧ (c.pos ≤ s.dromSize → c.pos + k ≤ s.dromSize))
      (fun u => u.besideComp = s.besideComp) := by
  induction k generalizing s c with
  | zero => exact ⟨rfl, fun h => h⟩
  | succ k ih =>
    refine ((rangeFetch_meets hc).mono (fun _ h => h) fun u hu => by rw [hu]).bind fun t ht => ?_
    obtain ⟨hb, hlt, d, hd, hp⟩ := ht
    refine (ih hd).mono (fun v hv => ⟨hv.1.trans hb, fun _ => ?_⟩) fun v hv => hv.trans hb
    have := hv.2
    rw [dromSize_of_besideComp hb] at this
    omega

/-- A composite writes nothing else, and its k range words stand behind its head inside the DROM (R146). -/
theorem composite_meets (b : Byte) (p k : Nat) (s : State) :
    (composite b p k s).Meets
      (fun t => t.besideComp = s.besideComp ∧ (p < s.dromSize → p + k < s.dromSize))
      (fun u => u.besideComp = s.besideComp) := by
  refine (rangeWords_meets k rfl).mono (fun t ht => ⟨ht.1, fun hp => ?_⟩) fun u hu => hu
  have := ht.2 hp
  show p + k < State.dromSize { s with comp := some ⟨b, p + 1, []⟩ }
  dsimp only at this ⊢
  omega

/-! ### What one descriptor writes (R166 to R177) -/

/-- The state but for what a walk writes: REC with its count and flag, REM, ISM, CUR, DP, LENVLD and LENVAL, and the
model's own working fields. -/
def State.besideWalk (s : State) : State :=
  { s with
    recs := []
    status := s.status.recCleared
    res := { s.res with rem := 0#16, recCnt := 0#16 }
    ism := .idle
    cur := 0#16
    dp := 0#16
    lenVld := false
    lenVal := 0
    dpPast := false
    comp := none
    draws := 0 }

theorem besideWalk_of_besideComp {s t : State} (h : t.besideComp = s.besideComp) : t.besideWalk = s.besideWalk :=
  view_eq State.besideWalk h

@[simp] theorem besideWalk_setDp (n : Nat) (s : State) : (State.setDp n s).besideWalk = s.besideWalk := by
  unfold State.setDp
  split <;> rfl

@[simp] theorem besideWalk_advance (b w : Nat) (s : State) : (advance b w s).besideWalk = s.besideWalk :=
  besideWalk_setDp _ s

@[simp] theorem besideWalk_latchLength (h : Head) (v : Nat) (s : State) :
    (latchLength h v s).besideWalk = s.besideWalk := by
  unfold latchLength
  split <;> rfl

theorem dromSize_of_besideWalk {s t : State} (h : t.besideWalk = s.besideWalk) : t.dromSize = s.dromSize :=
  view_eq State.dromSize h

theorem dromSize_le (s : State) : s.dromSize ≤ 65536 := by
  have h := s.cfg.property
  simp only [Config.wf, Bool.and_eq_true, decide_eq_true_eq] at h
  obtain ⟨⟨⟨⟨_, hdrom⟩, _⟩, _⟩, _⟩ := h
  exact hdrom.2

/-- One descriptor of the list is done (R162): one entry more, and the pointer past the words it occupies, which
stand inside the DROM if the descriptor does. -/
structure Decoded (s t : State) : Prop where
  beside : t.besideWalk = s.besideWalk
  ism : t.ism = .fetch
  comp : s.comp = none → t.comp = none
  entry : t.recs.length = s.recs.length + 1
  count : t.res.recCnt = s.res.recCnt + 1#16
  length : s.LengthOk → t.LengthOk
  pointer : s.dpIndex < s.dromSize → s.dpIndex < t.dpIndex ∧ t.dpIndex ≤ t.dromSize ∧ t.PointerOk

/-- `advance` after an entry has been emitted, whatever the descriptor did to CUR, LENVAL and the composite. -/
theorem advance_decoded {s u : State} {b w : Nat} (hb : u.besideWalk = s.besideWalk) (hdp : u.dpIndex = s.dpIndex)
    (hcomp : s.comp = none → u.comp = none) (hentry : u.recs.length = s.recs.length + 1)
    (hcount : u.res.recCnt = s.res.recCnt + 1#16) (hlen : s.LengthOk → u.LengthOk) (hw : 0 < w)
    (hfit : s.dpIndex < s.dromSize → s.dpIndex + w ≤ s.dromSize) : Decoded s (advance b w u) := by
  have hbeside : (advance b w u).besideWalk = s.besideWalk := (besideWalk_advance b w u).trans hb
  obtain ⟨d, p, k, hset⟩ := setDp_eq (u.dpIndex + w) u
  have hmax := dromSize_le s
  have hindex : (advance b w u).dpIndex = min (s.dpIndex + w) 65536 := by
    rw [← hdp]; exact dpIndex_setDp _ u
  refine ⟨hbeside, rfl, ?_, ?_, ?_, ?_, fun hin => ?_⟩
  · simpa only [advance, hset] using hcomp
  · simpa only [advance, hset] using hentry
  · simpa only [advance, hset] using hcount
  · simpa only [advance, hset, State.LengthOk] using hlen
  · have := hfit hin
    have hsize := dromSize_of_besideWalk hbeside
    refine ⟨by omega, by omega, fun hpast => ?_⟩
    have : (advance b w u).dpIndex = 65536 := by simp [State.dpIndex, hpast]
    omega

/-- A descriptor of one word that emits its entry and advances. -/
theorem emit_advance_decoded (name : Half) (v : RecValue) (b : Nat) (s : State) :
    Decoded s (advance b 1 (emit name v s)) :=
  advance_decoded rfl rfl (fun h => h) (by simp) rfl (fun h => h) Nat.one_pos fun h => h

theorem le_lt_two_pow {bs : List Byte} {n : Nat} (h : 8 * bs.length ≤ n) : le bs < 2 ^ n := by
  have hbits : 256 ^ bs.length = 2 ^ (8 * bs.length) := (Nat.pow_mul 2 8 _).symm
  exact Nat.lt_of_lt_of_le (hbits ▸ le_lt bs) (Nat.pow_le_pow_right Nat.two_pos h)

theorem lengthOk_of_zero {s : State} (h : s.lenVal = 0) : s.LengthOk := by
  rw [State.LengthOk, h]
  exact le_lt_two_pow (bs := []) (Nat.zero_le _)

/-- LENVAL keeps to the widest fixed-binary field, 255 bytes (R37, R168). -/
theorem latchLength_lengthOk {h : Head} {bs : List Byte} {s : State} (hbs : bs.length ≤ 255) (hs : s.LengthOk) :
    (latchLength h (le bs) s).LengthOk := by
  unfold latchLength
  split
  · exact le_lt_two_pow (n := 2040) (by omega)
  · exact hs

theorem binBody_meets (h : Head) (s : State) : (binBody h s).Meets (Decoded s) (· = s) := by
  refine .guard rfl fun _ => (need_meets _ _ s).bind ?_
  rintro t ⟨rfl, _⟩
  refine advance_decoded (besideWalk_latchLength ..) ?_ ?_ ?_ ?_ (fun hl => ?_) Nat.one_pos fun h => h
  · unfold latchLength State.dpIndex; split <;> rfl
  · unfold latchLength; split <;> exact fun hc => hc
  · unfold latchLength; split <;> simp
  · unfold latchLength; split <;> rfl
  have hsize := h.size.isLt
  exact latchLength_lengthOk (by rw [payRange_length]; omega) hl

theorem asciiBody_meets (h : Head) (s : State) : (asciiBody h s).Meets (Decoded s) (· = s) := by
  refine .guard rfl fun _ => (need_meets _ _ s).bind ?_
  rintro t ⟨rfl, _⟩
  exact emit_advance_decoded ..

theorem bcdDateBody_meets (h : Head) (s : State) : (bcdDateBody h s).Meets (Decoded s) (· = s) := by
  refine .guard rfl fun _ => (need_meets _ _ s).bind ?_
  rintro t ⟨rfl, _⟩
  exact emit_advance_decoded ..

theorem bcdBody_meets (h : Head) (s : State) : (bcdBody h s).Meets (Decoded s) (· = s) := by
  refine .guard rfl fun _ => (need_meets _ _ s).bind ?_
  rintro t ⟨rfl, _⟩
  exact emit_advance_decoded ..

theorem contentBody_meets (h : Head) (s : State) : (contentBody h s).Meets (Decoded s) (· = s) := by
  refine .guard rfl fun _ => .guard rfl fun _ => (need_meets _ _ s).bind ?_
  rintro t ⟨rfl, _⟩
  exact emit_advance_decoded ..

theorem bsBody_meets (h : Head) (s : State) :
    (bsBody h s).Meets (Decoded s) (fun u => u.besideComp = s.besideComp) := by
  refine .guard rfl fun _ => ((need_meets _ _ s).mono (fun _ h => h) fun _ h => by rw [h]).bind ?_
  rintro t ⟨rfl, _⟩
  refine (composite_meets _ _ _ t).bind fun u ⟨hb, hfit⟩ => ?_
  refine advance_decoded ?_ ?_ (fun _ => rfl) ?_ ?_ ?_ (by omega) fun hin => ?_
  · exact (view_eq State.besideWalk hb :)
  · exact (view_eq State.dpIndex hb :)
  · simp [view_eq State.recs hb]
  · simp [view_eq State.res hb]
  · exact (view_eq State.LengthOk hb).mpr
  · have := hfit hin
    omega

/-- END leaves ISM in I_DONE with REM and REC_VALID, or raises (R166). -/
theorem endListBody_meets (h : Head) (s : State) :
    (endListBody h s).Meets
      (fun t => t = { s with
        res := { s.res with rem := s.res.pEnd - s.cur }
        status := s.status.recSet
        ism := .done })
      (· = s) :=
  .guard rfl fun _ => rfl

theorem unknownTagBody_meets (t : BitVec 3) (h : Head) (s : State) :
    (unknownTagBody t h s).Meets (fun _ => False) (· = s) :=
  .raiseStage rfl

/-! ### Descriptors and commands as instructions -/

theorem not_command_of_word {i : Instr} {w : Word} (h : encode i = .desc w) : ¬ IsCommand i := by
  rintro ⟨b, hb⟩
  exact Encoded.noConfusion (hb.symm.trans h)

theorem decodeDesc_not_command (w : Word) : ¬ IsCommand (decodeDesc w) := by
  unfold decodeDesc
  iterate 8 refine iteInduction (motive := fun i => ¬ IsCommand i) (fun _ => not_command_of_word rfl) fun _ => ?_
  exact not_command_of_word rfl

theorem decodeCmd_command (b : Byte) : IsCommand (decodeCmd b) := by
  unfold decodeCmd
  iterate 16 refine iteInduction (motive := IsCommand) (fun _ => ⟨_, rfl⟩) fun _ => ?_
  exact ⟨_, rfl⟩

/-- A DROM word's meaning is its descriptor's body (R162). -/
theorem exec_descriptor {i : Instr} (hi : ¬ IsCommand i) (s : State) : exec i s = .next (descriptor i s).state := by
  cases i
  case endList | bin | bs | ascii | bcdDate | bcd | content | range | unknownTag => rfl
  all_goals exact absurd ⟨_, rfl⟩ hi

theorem Decoded.meets {x : Stage} {s : State} (hx : x.Meets (Decoded s) (fun u => u.besideComp = s.besideComp)) :
    x.Meets (fun t => t.besideWalk = s.besideWalk) (fun u => u.besideWalk = s.besideWalk) :=
  hx.mono (fun _ h => h.beside) fun _ h => besideWalk_of_besideComp h

/-- A descriptor that is neither END, RANGE nor unrecognised is decoded or raises, with at most the composite under
way. -/
theorem descriptor_decoded {i : Instr} (hi : ¬ IsCommand i) (hend : ∀ h, i ≠ .endList h)
    (hrange : ∀ r, i ≠ .range r) (s : State) :
    (descriptor i s).Meets (Decoded s) (fun u => u.besideComp = s.besideComp) := by
  have same : ∀ {x : Stage}, x.Meets (Decoded s) (· = s) →
      x.Meets (Decoded s) (fun u => u.besideComp = s.besideComp) := fun hx =>
    hx.mono (fun _ h => h) fun _ h => by rw [h]
  cases i with
  | endList h => exact absurd rfl (hend h)
  | range r => exact absurd rfl (hrange r)
  | bin h => exact same (binBody_meets h s)
  | bs h => exact bsBody_meets h s
  | ascii h => exact same (asciiBody_meets h s)
  | bcdDate h => exact same (bcdDateBody_meets h s)
  | bcd h => exact same (bcdBody_meets h s)
  | content h => exact same (contentBody_meets h s)
  | unknownTag t h => exact (unknownTagBody_meets t h s).mono (fun _ h => h.elim) fun _ h => by rw [h]
  | _ => exact absurd ⟨_, rfl⟩ hi

/-- No descriptor writes outside the walk's own registers, errors apart. -/
theorem descriptor_meets {i : Instr} (hi : ¬ IsCommand i) (s : State) :
    (descriptor i s).Meets (fun t => t.besideWalk = s.besideWalk) (fun u => u.besideWalk = s.besideWalk) := by
  by_cases hend : ∃ h, i = .endList h
  · obtain ⟨h, rfl⟩ := hend
    exact (endListBody_meets h s).mono (fun t ht => by rw [ht]; rfl) fun u hu => by rw [hu]
  by_cases hrange : ∃ r, i = .range r
  · obtain ⟨r, rfl⟩ := hrange
    exact (rangeBody_meets r s).mono (fun t ht => besideWalk_of_besideComp ht.1) fun u hu => by rw [hu]
  exact Decoded.meets (descriptor_decoded hi (fun h e => hend ⟨h, e⟩) (fun r e => hrange ⟨r, e⟩) s)

/-! ### The walk (R162) -/

/-- Between two turns of an interpretation that began in s. Each entry of REC occupies a DROM word before DP. -/
structure Walking (s u : State) : Prop where
  beside : u.besideWalk = s.besideWalk
  comp : u.comp = none
  length : u.LengthOk
  pointer : u.PointerOk
  count : u.res.recCnt = BitVec.ofNat 16 u.recs.length
  room : u.recs.length ≤ u.dpIndex

/-- After END. -/
structure Walked (s u : State) : Prop where
  beside : u.besideWalk = s.besideWalk
  comp : u.comp = none
  length : u.LengthOk
  pointer : u.PointerOk
  count : u.res.recCnt.toNat = u.recs.length
  ism : u.ism = .done

/-- Where a descriptor raises. -/
structure WalkFails (s u : State) : Prop where
  beside : u.besideWalk = s.besideWalk
  length : u.LengthOk
  pointer : u.PointerOk

theorem Walking.fails {s u v : State} (h : Walking s u) (hv : v.besideComp = u.besideComp) : WalkFails s v :=
  ⟨(besideWalk_of_besideComp hv).trans h.beside, (view_eq State.LengthOk hv).mpr h.length,
    (view_eq State.PointerOk hv).mpr h.pointer⟩

/-- After one descriptor the walk goes on, further in the DROM. -/
theorem Walking.decoded {s u t : State} (h : Walking s u) (hin : u.dpIndex < u.dromSize) (ht : Decoded u t) :
    Walking s t ∧ u.dpIndex < t.dpIndex ∧ t.dpIndex ≤ t.dromSize := by
  obtain ⟨hlt, hle, hptr⟩ := ht.pointer hin
  refine ⟨⟨ht.beside.trans h.beside, ht.comp h.comp, ht.length h.length, hptr, ?_, ?_⟩, hlt, hle⟩
  · rw [ht.count, ht.entry, h.count, BitVec.ofNat_add]
  · rw [ht.entry]
    exact Nat.lt_of_le_of_lt h.room hlt

/-- END ends the walk with REC_CNT counting REC: there are fewer entries than DROM words. -/
theorem Walking.ended {s u t : State} (h : Walking s u) (hin : u.dpIndex < u.dromSize)
    (ht : t = { u with
      res := { u.res with rem := u.res.pEnd - u.cur }
      status := u.status.recSet
      ism := .done }) : Walked s t := by
  subst ht
  refine ⟨h.beside, h.comp, h.length, h.pointer, ?_, rfl⟩
  have hroom := h.room
  have hmax := dromSize_le u
  show u.res.recCnt.toNat = u.recs.length
  rw [h.count, BitVec.toNat_ofNat]
  omega

/-- One turn either goes on at a higher index inside the DROM, or ends the walk, or raises. -/
theorem walkTurn_meets {s u : State} (h : Walking s u) :
    (walkTurn u).Meets
      (fun t => (t.ism = .fetch ∧ Walking s t ∧ u.dpIndex < t.dpIndex ∧ t.dpIndex ≤ t.dromSize) ∨ Walked s t)
      (WalkFails s) := by
  unfold walkTurn
  split
  · exact .raiseStage (h.fails rfl)
  · next w hw =>
    have hin := dromWord_lt hw
    have hexec : Walking s { u with ism := .exec } := ⟨h.beside, h.comp, h.length, h.pointer, h.count, h.room⟩
    have hword := decodeDesc_not_command w
    by_cases hend : ∃ h, decodeDesc w = .endList h
    · obtain ⟨e, he⟩ := hend
      rw [he]
      exact (endListBody_meets e _).mono (fun t ht => .inr (hexec.ended hin ht)) fun v hv => by
        rw [hv]; exact hexec.fails rfl
    by_cases hrange : ∃ r, decodeDesc w = .range r
    · obtain ⟨r, hr⟩ := hrange
      rw [hr]
      refine (rangeBody_meets r _).mono (fun t ht => ?_) fun v hv => by rw [hv]; exact hexec.fails rfl
      obtain ⟨-, c, -, hc, -⟩ := ht
      exact absurd (hexec.comp.symm.trans hc) (Option.some_ne_none c).symm
    refine (descriptor_decoded hword (fun e he => hend ⟨e, he⟩) (fun r hr => hrange ⟨r, hr⟩) _).mono
      (fun t ht => .inl ⟨ht.ism, hexec.decoded hin ht⟩) fun v hv => hexec.fails hv

/-- With fuel for the words left, the walk ends by END or by a `raise`: every turn moves DP on inside the DROM. -/
theorem walk_meets {s : State} (fuel : Nat) {u : State} (h : Walking s u) (hpos : 0 < fuel)
    (hfuel : u.dromSize < u.dpIndex + fuel) : (walk fuel u).Meets (Walked s) (WalkFails s) := by
  induction fuel generalizing u with
  | zero => exact absurd hpos (Nat.lt_irrefl 0)
  | succ n ih =>
    refine (walkTurn_meets h).bind fun t ht => ?_
    rcases ht with ⟨hism, hwalk, hlt, hle⟩ | hdone
    · rw [hism]
      have hsize : t.dromSize = u.dromSize := dromSize_of_besideWalk (hwalk.beside.trans h.beside.symm)
      exact ih hwalk (by omega) (by omega)
    · rw [hdone.ism]
      exact hdone

/-- An interpretation ends by END or by a `raise`, and writes the walk's own registers only (R162). -/
theorem interpret_meets (base : Half) (s : State) : (interpret base s).Meets (Walked s) (WalkFails s) := by
  have hbegin : Walking s (interpretBegin base s) :=
    ⟨rfl, rfl, lengthOk_of_zero rfl, fun h => Bool.noConfusion h, rfl, Nat.zero_le _⟩
  refine walk_meets (s.dromSize + 1) hbegin (Nat.succ_pos _) ?_
  show s.dromSize < _
  omega

end Sys2Proof.Machine
end

section
/-! SUPPORT. What each command writes and what it keeps of the invariant: every command is one issue of its pseudocode
(R281), which goes to its end or raises inside the command's frame. -/

namespace Sys2Proof.Machine

open Sys2Proof.Spec

/-! ### Every command as one issue of its pseudocode (R281) -/

/-- The pseudocode of a command, with or without the encoder; of a DROM word, its body. -/
def commandBody (encoder : Bool) : Instr → State → Stage
  | .nop => .cont
  | .chksum => chksumBody
  | .crc16 => crc16Body
  | .tblrd => tblrdBody
  | .bitx => bitxBody
  | .bitc => bitcBody
  | .dctl => dctlBody
  | .interp => interpBody
  | .parsea => parseaBody
  | .parseb => parsebBody
  | .parsec => parsecBody
  | .enca => if encoder then encaBody else raiseStage .badCommand 0 0x0B#16 0
  | .reserved0c low => raiseStage .badCommand 0 ((0b000011#6 ++ low).setWidth 16) 0
  | .reserved10 low => raiseStage .badCommand 0 ((0b0001#4 ++ low).setWidth 16) 0
  | .reserved20 low => raiseStage .badCommand 0 ((0b001#3 ++ low).setWidth 16) 0
  | .reserved40 low => raiseStage .badCommand 0 ((0b01#2 ++ low).setWidth 16) 0
  | .reserved80 low => raiseStage .badCommand 0 ((0b1#1 ++ low).setWidth 16) 0
  | i => descriptor i

/-- What an error of the command leaves unspecified (R297). -/
def commandSpoil (encoder : Bool) : Instr → State → State
  | .chksum => spoilChksum
  | .crc16 => spoilCrc16
  | .bitx => spoilBitx
  | .bitc => spoilBitc
  | .dctl => spoilDctl
  | .interp => spoilInterp
  | .parsea => spoilParsea
  | .parseb => spoilParseb
  | .parsec => spoilParsec
  | .enca => if encoder then spoilEnca else id
  | _ => id

theorem exec_command {i : Instr} (hi : IsCommand i) (s : State) :
    exec i s
      = .next (issue (commandSpoil s.cfg.val.hasEncoder i) (commandBody s.cfg.val.hasEncoder i) s) := by
  cases i
  case enca =>
    show Host.Outcome.next _ = _
    unfold commandSpoil commandBody
    cases s.cfg.val.hasEncoder <;> rfl
  case endList | bin | bs | ascii | bcdDate | bcd | content | range | unknownTag =>
    exact absurd hi (not_command_of_word rfl)
  all_goals rfl

/-! ### What each command may write -/

/-- The state but for the results of CHKSUM, CRC16, TBLRD, BITX and DCTL. -/
def State.besideResults (s : State) : State :=
  { s with
    res := { s.res with
      rSum := 0, rCrc := 0, rBits := 0, rBitw := 0, fCtrl := 0, ciDir := 0, ciPrm := 0, ciAddr := 0, ciVer := 0
      ciFunc := 0, ciMask := 0 }
    draws := 0 }

/-- The state but for what ENCA writes. -/
def State.besideEncoder (s : State) : State :=
  { s with tx := [], txGen := 0, seq := 0, res := { s.res with txLen := 0 }, draws := 0 }

/-- The state but for what BITC writes. -/
def State.besideRecord (s : State) : State :=
  { s with
    recs := []
    status := s.status.recCleared
    res := { s.res with rem := 0, recCnt := 0 }
    comp := none
    draws := 0 }

/-- The state but for what INTERP writes. -/
def State.besideInterp (s : State) : State :=
  let t := s.besideWalk
  { t with res := { t.res with pStart := 0, pEnd := 0, deobf := 0 } }

/-- The state but for what the PARSE commands write; of the results, those of the other commands stay. -/
def State.besideParse (s : State) : State :=
  let t := s.besideInterp
  { t with
    addr0 := []
    addr1 := []
    addr0Gen := 0
    addr1Gen := 0
    fsm := .idle
    status := t.status.parseCleared
    res := { ResRegs.zero with
      rSum := t.res.rSum, rCrc := t.res.rCrc, rBits := t.res.rBits, rBitw := t.res.rBitw, txLen := t.res.txLen } }

/-- The frame of an instruction: all but what its rule lists under "Writes", STATUS's command bits and errors apart. -/
def instrBeside : Instr → State → State
  | .bitc => State.besideRecord
  | .interp => State.besideInterp
  | .parsea | .parseb | .parsec => State.besideParse
  | .enca => State.besideEncoder
  | .endList _ | .bin _ | .bs _ | .ascii _ | .bcdDate _ | .bcd _ | .content _ | .range _ | .unknownTag _ _ =>
    State.besideWalk
  | .nop | .chksum | .crc16 | .tblrd | .bitx | .dctl => State.besideResults
  | .reserved0c _ | .reserved10 _ | .reserved20 _ | .reserved40 _ | .reserved80 _ => State.besideResults

theorem instrBeside_word {i : Instr} (hi : ¬ IsCommand i) : instrBeside i = State.besideWalk := by
  cases i
  case endList | bin | bs | ascii | bcdDate | bcd | content | range | unknownTag => rfl
  all_goals exact absurd ⟨_, rfl⟩ hi

/-- The frames of all instructions but PARSE. -/
theorem instrBeside_cases {i : Instr} (hparse : ¬ IsParse i) :
    instrBeside i = State.besideResults ∨ instrBeside i = State.besideEncoder
      ∨ (i = .bitc ∧ instrBeside i = State.besideRecord) ∨ (i = .interp ∧ instrBeside i = State.besideInterp)
      ∨ (¬ IsCommand i ∧ instrBeside i = State.besideWalk) := by
  cases i
  case parsea => exact absurd (.inl rfl) hparse
  case parseb => exact absurd (.inr (.inl rfl)) hparse
  case parsec => exact absurd (.inr (.inr rfl)) hparse
  case enca => exact .inr (.inl rfl)
  case bitc => exact .inr (.inr (.inl ⟨rfl, rfl⟩))
  case interp => exact .inr (.inr (.inr (.inl ⟨rfl, rfl⟩)))
  case endList | bin | bs | ascii | bcdDate | bcd | content | range | unknownTag =>
    exact .inr (.inr (.inr (.inr ⟨not_command_of_word rfl, rfl⟩)))
  all_goals exact .inl rfl

/-- ADDR0 and ADDR1 are canonical and hold at most 16 bytes (R24). -/
def State.AddressOk (s : State) : Prop :=
  (Memory.wf s.addr0 = true ∧ Memory.below s.addr0 16 = true)
    ∧ (Memory.wf s.addr1 = true ∧ Memory.below s.addr1 16 = true)

/-- What a command keeps of the invariant at every moment, also where it raises. -/
structure Keeps (s u : State) : Prop where
  memory : s.MemoryOk → u.MemoryOk
  length : s.LengthOk → u.LengthOk
  encoder : s.EncoderOk → u.EncoderOk
  pointer : s.PointerOk → u.PointerOk

/-- What a command that has come to its end without an error keeps besides. -/
structure Completes (s u : State) : Prop extends Keeps s u where
  parsing : s.parsing = false → u.parsing = false
  walking : s.walking = false → u.walking = false
  comp : s.comp = none → u.comp = none
  record : s.RecordOk → u.RecordOk

theorem Completes.of_results {s u : State} (h : u.besideResults = s.besideResults) : Completes s u where
  memory := (view_eq State.MemoryOk h).mpr
  length := (view_eq State.LengthOk h).mpr
  encoder := (view_eq State.EncoderOk h).mpr
  pointer := (view_eq State.PointerOk h).mpr
  parsing := (view_eq State.parsing h).trans
  walking := (view_eq State.walking h).trans
  comp := (view_eq State.comp h).trans
  record := (view_eq State.RecordOk h).mpr

theorem Keeps.of_record {s u : State} (h : u.besideRecord = s.besideRecord) : Keeps s u where
  memory := (view_eq State.MemoryOk h).mpr
  length := (view_eq State.LengthOk h).mpr
  encoder := (view_eq State.EncoderOk h).mpr
  pointer := (view_eq State.PointerOk h).mpr

/-! ### The commands that write results only -/

/-- A command without side effects: it writes results and raises where it stands. -/
abbrev Stage.MeetsResults (s : State) : Stage → Prop :=
  Stage.Meets (fun t => t.besideResults = s.besideResults) (· = s)

theorem chksumBody_meets (s : State) : (chksumBody s).MeetsResults s := by
  unfold chksumBody
  split
  · exact rfl
  · refine (bufCheck_meets s).bind ?_
    rintro t ⟨rfl, _⟩
    exact .guard rfl fun _ => rfl

theorem crc16Body_meets (s : State) : (crc16Body s).MeetsResults s := by
  unfold crc16Body
  split
  · exact rfl
  · refine (bufCheck_meets s).bind ?_
    rintro t ⟨rfl, _⟩
    exact .guard rfl fun _ => rfl

theorem bitxBody_meets (s : State) : (bitxBody s).MeetsResults s :=
  .guard rfl fun _ => rfl

theorem dctlBody_meets (s : State) : (dctlBody s).MeetsResults s := by
  unfold dctlBody
  split
  · exact .raiseStage rfl
  · exact rfl

/-! ### BITC, ENCA and INTERP -/

theorem bitcHead_meets (h : Head) (s : State) :
    (bitcHead h s).Meets
      (fun t => t.besideRecord = s.besideRecord ∧ t.comp = none ∧ t.res.recCnt.toNat = t.recs.length)
      (fun u => u.besideRecord = s.besideRecord) := by
  refine .guard rfl fun _ => ((composite_meets ..).mono (fun _ ht => ht.1) fun u hu => ?_).bind fun t ht => ?_
  · exact view_eq State.besideRecord hu
  · have hbeside : t.besideRecord = s.besideRecord := view_eq State.besideRecord ht
    exact ⟨hbeside, rfl, rfl⟩

theorem bitcBody_meets (s : State) :
    (bitcBody s).Meets
      (fun t => t.besideRecord = s.besideRecord ∧ t.comp = none ∧ t.res.recCnt.toNat = t.recs.length)
      (fun u => u.besideRecord = s.besideRecord) := by
  unfold bitcBody
  dsimp only
  split
  · exact .raiseStage rfl
  · split
    · exact bitcHead_meets _ _
    · exact .raiseStage rfl

theorem encBody_length (s : State) : s.encBody.length = 7 + s.encPayloadLen := by
  simp [State.encBody]
  omega

/-- The frame has N bytes (R261, R262). -/
theorem encFrame_length (s : State) : s.encFrame.length = s.encFrameLen := by
  simp [State.encFrame, encBody_length, State.encFrameLen]
  omega

theorem encaBody_meets {s : State} (henc : s.cfg.val.hasEncoder = true) :
    (encaBody s).Meets (fun t => t.besideEncoder = s.besideEncoder ∧ Completes s t ∧ t.seq = s.seq + 1#8)
      (· = s) := by
  refine (bufCheck_meets s).bind ?_
  rintro t ⟨rfl, _⟩
  refine .guard rfl fun _ => .guard rfl fun hcap => ⟨rfl, ?_, rfl⟩
  refine ⟨⟨fun ⟨hbuf, _, haddr⟩ => ⟨hbuf, ⟨Memory.wf_ofBytes _ _, Memory.below_ofBytes _ _ _ ?_⟩, haddr⟩, id, ?_, id⟩,
    id, id, id, id⟩
  · rw [encFrame_length]
    show 0 + t.encFrameLen ≤ t.cfg.val.txCap
    omega
  · exact fun _ hno => absurd (hno.symm.trans henc) Bool.false_ne_true

/-- The invariant's parts that an interpretation keeps, wherever it stands. -/
theorem WalkFails.keeps {s u : State} (h : WalkFails s u) : Keeps s u where
  memory := (view_eq State.MemoryOk h.beside).mpr
  length _ := h.length
  encoder := (view_eq State.EncoderOk h.beside).mpr
  pointer _ := h.pointer

theorem Walked.recordOk {s u : State} (h : Walked s u) : u.RecordOk := fun _ => h.count

theorem Walked.completes {s u : State} (h : Walked s u) : Completes s u where
  toKeeps := WalkFails.keeps ⟨h.beside, h.length, h.pointer⟩
  parsing := (view_eq State.parsing h.beside).trans
  walking _ := by rw [State.walking, h.ism]
  comp _ := h.comp
  record _ := h.recordOk

theorem interpBody_meets (s : State) :
    (interpBody s).Meets (fun t => t.besideInterp = s.besideInterp ∧ Completes s t)
      (fun u => u.besideInterp = s.besideInterp ∧ Keeps s u) := by
  have hsame : Keeps s s := ⟨id, id, id, id⟩
  refine ((bufCheck_meets s).mono (fun _ h => h) fun u hu => by rw [hu]; exact ⟨rfl, hsame⟩).bind ?_
  rintro t ⟨rfl, _⟩
  refine .guard ⟨rfl, ⟨id, id, id, id⟩⟩ fun _ => (interpret_meets _ _).mono (fun t ht => ?_) fun u hu => ?_
  · obtain ⟨⟨hm, hl, he, hp⟩, hpar, hwalk, hcomp, _⟩ := ht.completes
    exact ⟨(view_eq State.besideInterp ht.beside :), ⟨hm, hl, he, hp⟩, hpar, hwalk, hcomp, fun _ => ht.recordOk⟩
  · obtain ⟨hm, hl, he, hp⟩ := hu.keeps
    exact ⟨(view_eq State.besideInterp hu.beside :), ⟨hm, hl, he, hp⟩⟩

/-! ### The stages of the frame parsers -/

/-- The state but for what a PARSE command's stages write before and after the payload is delegated. -/
def State.besideStages (s : State) : State :=
  { s with
    addr0 := []
    addr1 := []
    fsm := .idle
    status := { s.status with ckValid := false, hkValid := false }
    res := { ResRegs.zero with
      rSum := s.res.rSum, rCrc := s.res.rCrc, rBits := s.res.rBits, rBitw := s.res.rBitw, txLen := s.res.txLen
      recCnt := s.res.recCnt } }

/-- Inside a PARSE command, in a stage that began its frame in s. -/
structure Staged (s u : State) : Prop where
  beside : u.besideStages = s.besideStages
  parsing : u.parsing = true
  address : u.AddressOk

/-- A stage keeps the frame of the PARSE stages. -/
abbrev Stage.MeetsStaged (s : State) : Stage → Prop := Stage.Meets (Staged s) (Staged s)

theorem addressOk_ofBytes (s : State) (a n : Nat) (hn : n ≤ 16) :
    Memory.wf (Memory.ofBytes 0 (reverseBytes (s.bufRange a n))) = true
      ∧ Memory.below (Memory.ofBytes 0 (reverseBytes (s.bufRange a n))) 16 = true :=
  ⟨Memory.wf_ofBytes _ _, Memory.below_ofBytes _ _ _ (by simpa [reverseBytes] using hn)⟩

theorem addrLenB_le (s : State) : s.addrLenB ≤ 16 := by
  have := ((s.bufByte 4).extractLsb' 0 4).isLt
  unfold State.addrLenB
  omega

section
variable {s u : State}

theorem Staged.setAddr0 (h : Staged s u) (a : Nat) {n : Nat} (hn : n ≤ 16) : Staged s (setAddr0 a n u) :=
  ⟨h.beside, h.parsing, addressOk_ofBytes u a n hn, h.address.2⟩

theorem Staged.setAddr1 (h : Staged s u) (a : Nat) {n : Nat} (hn : n ≤ 16) : Staged s (setAddr1 a n u) :=
  ⟨h.beside, h.parsing, h.address.1, addressOk_ofBytes u a n hn⟩

/-- parse_begin empties both address arrays (R201). -/
theorem parseBegin_staged (s : State) : Staged (parseBegin s) (parseBegin s) := ⟨rfl, rfl, ⟨rfl, rfl⟩, rfl, rfl⟩

theorem startStage_meets (h : Staged s u) : (startStage u).MeetsStaged s :=
  .guard h fun _ => .guard h fun _ => h

theorem lengthStageA_meets (h : Staged s u) : (lengthStageA u).MeetsStaged s :=
  .guard ⟨h.beside, rfl, h.address⟩ fun _ => .guard ⟨h.beside, rfl, h.address⟩ fun _ => ⟨h.beside, rfl, h.address⟩

theorem controlStageA_meets (h : Staged s u) : (controlStageA u).MeetsStaged s :=
  .guard ⟨h.beside, rfl, h.address⟩ fun _ => ⟨h.beside, rfl, h.address⟩

theorem addressStageA_meets (h : Staged s u) : (addressStageA u).MeetsStaged s := by
  have hstage : Staged s (u.enter .address) := ⟨h.beside, rfl, h.address⟩
  have hfirst := hstage.setAddr0 4 (n := 6) (by decide)
  unfold addressStageA
  split
  · exact .guard hstage fun _ => .guard hfirst fun _ => hfirst.setAddr1 10 (by decide)
  · exact h

theorem funcStageA_meets (h : Staged s u) : (funcStageA u).MeetsStaged s :=
  .guard ⟨h.beside, rfl, h.address⟩ fun _ => ⟨h.beside, rfl, h.address⟩

theorem seqStageA_meets (h : Staged s u) : (seqStageA u).MeetsStaged s :=
  .guard h fun _ => ⟨h.beside, h.parsing, h.address⟩

theorem identStageA_meets (h : Staged s u) : (identStageA u).MeetsStaged s :=
  .guard h fun _ => ⟨h.beside, h.parsing, h.address⟩

theorem lengthStageB_meets (h : Staged s u) : (lengthStageB u).MeetsStaged s :=
  .guard ⟨h.beside, rfl, h.address⟩ fun _ => .guard ⟨h.beside, rfl, h.address⟩ fun _ => ⟨h.beside, rfl, h.address⟩

theorem controlStageB_meets (h : Staged s u) : (controlStageB u).MeetsStaged s :=
  .guard ⟨h.beside, rfl, h.address⟩ fun _ => ⟨h.beside, rfl, h.address⟩

theorem addrHeaderStageB_meets (h : Staged s u) : (addrHeaderStageB u).MeetsStaged s :=
  .guard ⟨h.beside, rfl, h.address⟩ fun _ => ⟨h.beside, rfl, h.address⟩

theorem addressStageB_meets (h : Staged s u) : (addressStageB u).MeetsStaged s :=
  have hset := h.setAddr0 5 (addrLenB_le u)
  .guard h fun _ => ⟨hset.beside, hset.parsing, hset.address⟩

theorem trailStageB_meets (h : Staged s u) : (trailStageB u).MeetsStaged s :=
  .guard h fun _ => ⟨h.beside, h.parsing, h.address⟩

theorem hcsStageB_meets (h : Staged s u) : (hcsStageB u).MeetsStaged s :=
  .guard ⟨h.beside, rfl, h.address⟩ fun _ => ⟨h.beside, rfl, h.address⟩

theorem addressStageC_meets (h : Staged s u) : (addressStageC u).MeetsStaged s :=
  have hstage : Staged s (u.enter .address) := ⟨h.beside, rfl, h.address⟩
  have hset := hstage.setAddr0 1 (n := 6) (by decide)
  .guard hstage fun _ => ⟨hset.beside, hset.parsing, hset.address⟩

theorem start2StageC_meets (h : Staged s u) : (start2StageC u).MeetsStaged s :=
  .guard ⟨h.beside, rfl, h.address⟩ fun _ => .guard ⟨h.beside, rfl, h.address⟩ fun _ => ⟨h.beside, rfl, h.address⟩

theorem controlStageC_meets (h : Staged s u) : (controlStageC u).MeetsStaged s :=
  .guard ⟨h.beside, rfl, h.address⟩ fun _ => ⟨h.beside, rfl, h.address⟩

theorem lengthStageC_meets (h : Staged s u) : (lengthStageC u).MeetsStaged s :=
  .guard ⟨h.beside, rfl, h.address⟩ fun _ => .guard ⟨h.beside, rfl, h.address⟩ fun _ => ⟨h.beside, rfl, h.address⟩

end

/-! ### From the payload to the end of a PARSE command -/

/-- Where a PARSE command issued in s may raise. -/
structure ParseFails (s u : State) : Prop extends Keeps s u where
  beside : u.besideParse = s.besideParse

/-- Where a PARSE command issued in s stands once its payload is delegated: the interpreter rests and REC_CNT counts
REC. -/
structure Delegated (s u : State) : Prop extends ParseFails s u where
  walking : s.walking = false → u.walking = false
  comp : s.comp = none → u.comp = none
  record : u.RecordOk

/-- The memories are kept, for what a PARSE command leaves alone and for its address arrays. -/
theorem memoryOk_of_address {s u : State} (h : u.besideParse = s.besideParse) (ha : s.AddressOk → u.AddressOk)
    (hs : s.MemoryOk) : u.MemoryOk := by
  obtain ⟨hbuf, htx, haddr⟩ := hs
  have hbuftx := view_eq (fun v => (v.buf, v.tx, v.cfg)) h
  simp only [Prod.mk.injEq] at hbuftx
  obtain ⟨hb, ht, hc⟩ := hbuftx
  refine ⟨?_, ?_, ha haddr⟩
  · rw [hb, hc]; exact hbuf
  · rw [ht, hc]; exact htx

theorem Staged.besideParse {s u : State} (h : Staged (parseBegin s) u) : u.besideParse = s.besideParse :=
  (view_eq State.besideParse h.beside : u.besideParse = (parseBegin s).besideParse)

theorem Staged.fails {s u : State} (h : Staged (parseBegin s) u) : ParseFails s u where
  beside := h.besideParse
  memory := memoryOk_of_address h.besideParse fun _ => h.address
  length := (view_eq State.LengthOk h.beside).mpr
  encoder := (view_eq State.EncoderOk h.besideParse).mpr
  pointer := (view_eq State.PointerOk h.beside).mpr

theorem lookupMiss_delegated {s u : State} (h : Staged (parseBegin s) u) : Delegated s (lookupMiss u) where
  beside := h.besideParse
  memory := h.fails.memory
  length := h.fails.length
  encoder := h.fails.encoder
  pointer := h.fails.pointer
  walking := (view_eq State.walking h.beside).trans
  comp := (view_eq State.comp h.beside).trans
  record _ := rfl

theorem WalkFails.parse_fails {s u v : State} (h : Staged (parseBegin s) u) (hv : WalkFails u v) : ParseFails s v where
  beside := (view_eq State.besideParse hv.beside).trans h.besideParse
  memory := hv.keeps.memory ∘ h.fails.memory
  length _ := hv.length
  encoder := hv.keeps.encoder ∘ h.fails.encoder
  pointer _ := hv.pointer

theorem Walked.delegated {s u v : State} (h : Staged (parseBegin s) u) (hv : Walked u v) : Delegated s v where
  toParseFails := WalkFails.parse_fails h ⟨hv.beside, hv.length, hv.pointer⟩
  walking _ := by rw [State.walking, hv.ism]
  comp _ := hv.comp
  record := hv.recordOk

theorem delegate_meets {s u : State} (h : Staged (parseBegin s) u) (k : Option Nat) :
    (delegate k u).Meets (Delegated s) (ParseFails s) := by
  rcases delegate_cases k u with ⟨-, hmiss⟩ | ⟨base, -, hhit⟩
  · rw [hmiss]
    exact lookupMiss_delegated h
  · rw [hhit]
    exact (interpret_meets base u).mono (fun v hv => hv.delegated h) fun v hv => hv.parse_fails h

theorem payloadStageA_meets {s u : State} (h : Staged (parseBegin s) u) :
    (payloadStageA u).Meets (Delegated s) (ParseFails s) :=
  have hset : Staged (parseBegin s) (setPayload (u.funcAtA + 6) u.trailerA 0#8 u) :=
    ⟨h.beside, h.parsing, h.address⟩
  delegate_meets hset _

theorem payloadStageB_meets {s u : State} (h : Staged (parseBegin s) u) :
    (payloadStageB u).Meets (Delegated s) (ParseFails s) :=
  have hset : Staged (parseBegin s) (setPayload (8 + (u.enter .payload).addrLenB) u.trailerB 0#8 (u.enter .payload)) :=
    ⟨h.beside, rfl, h.address⟩
  delegate_meets hset _

theorem payloadStageC_meets {s u : State} (h : Staged (parseBegin s) u) :
    (payloadStageC u).Meets (Delegated s) (ParseFails s) :=
  have hset : Staged (parseBegin s) (setPayload 10 u.trailerC obfuscation (u.enter .payload)) :=
    ⟨h.beside, rfl, h.address⟩
  delegate_meets hset _

/-- The CHECKSUM stage keeps all of this, whatever the protocol compares (R215, R229, R243). -/
theorem Delegated.checked {s u : State} (h : Delegated s u) (declared computed : Half) :
    Delegated s (setCheck declared computed (u.enter .checksum)) :=
  ⟨⟨⟨h.memory, h.length, h.encoder, h.pointer⟩, h.beside⟩, h.walking, h.comp, h.record⟩

/-- The END stage leaves the FSM in DONE or raises (R242). -/
theorem endStage_meets {s u : State} (h : Delegated s u) :
    (endStage u).Meets (fun t => t.besideParse = s.besideParse ∧ Completes s t)
      (fun v => v.besideParse = s.besideParse ∧ Keeps s v) :=
  .guard ⟨h.beside, h.memory, h.length, h.encoder, h.pointer⟩ fun _ =>
    ⟨h.beside, ⟨h.memory, h.length, h.encoder, h.pointer⟩, fun _ => rfl, h.walking, h.comp, fun _ => h.record⟩

theorem Stage.Meets.staged {s : State} {x : Stage} (hx : x.MeetsStaged (parseBegin s)) :
    x.Meets (Staged (parseBegin s)) (ParseFails s) :=
  hx.mono (fun _ h => h) fun _ h => h.fails

/-- The issue check and the START stage, with which every PARSE command begins (R201, R202, R281). -/
theorem parseStart_meets (s : State) :
    ((bufCheck s).bind fun t => startStage (parseBegin t)).Meets (Staged (parseBegin s)) (ParseFails s) := by
  refine ((bufCheck_meets s).mono (fun _ h => h) fun u hu => ?_).bind ?_
  · rw [hu]
    exact ⟨⟨id, id, id, id⟩, rfl⟩
  · rintro t ⟨rfl, _⟩
    exact (startStage_meets (parseBegin_staged t)).staged

/-- What the body of a PARSE command keeps. -/
abbrev Stage.MeetsParse (s : State) : Stage → Prop :=
  Stage.Meets (fun t => t.besideParse = s.besideParse ∧ Completes s t)
    (fun u => u.besideParse = s.besideParse ∧ Keeps s u)

/-- The last stages of a PARSE command: payload, checksum and end marker. -/
theorem parse_meets {s : State} {x : Stage} {payload check : State → Stage}
    (hx : x.Meets (Staged (parseBegin s)) (ParseFails s))
    (hpayload : ∀ u, Staged (parseBegin s) u → (payload u).Meets (Delegated s) (ParseFails s))
    (hcheck : ∀ u, ∃ d c, check u = .cont (setCheck d c (u.enter .checksum))) :
    ((x.bind payload).bind fun t => (check t).bind endStage).MeetsParse s := by
  refine ((hx.bind hpayload).mono (fun _ h => h) fun v hv => ⟨hv.beside, hv.toKeeps⟩).bind fun u hu => ?_
  obtain ⟨d, c, hc⟩ := hcheck u
  rw [hc]
  exact endStage_meets (hu.checked d c)

theorem parseaBody_meets (s : State) : (parseaBody s).MeetsParse s :=
  parse_meets
    (((((((parseStart_meets s).bind fun _ h => (lengthStageA_meets h).staged).bind fun _ h =>
      (controlStageA_meets h).staged).bind fun _ h => (addressStageA_meets h).staged).bind fun _ h =>
      (funcStageA_meets h).staged).bind fun _ h => (seqStageA_meets h).staged).bind fun _ h =>
      (identStageA_meets h).staged)
    (fun _ => payloadStageA_meets) fun _ => ⟨_, _, rfl⟩

theorem parsebBody_meets (s : State) : (parsebBody s).MeetsParse s :=
  parse_meets
    (((((((parseStart_meets s).bind fun _ h => (lengthStageB_meets h).staged).bind fun _ h =>
      (controlStageB_meets h).staged).bind fun _ h => (addrHeaderStageB_meets h).staged).bind fun _ h =>
      (addressStageB_meets h).staged).bind fun _ h => (trailStageB_meets h).staged).bind fun _ h =>
      (hcsStageB_meets h).staged)
    (fun _ => payloadStageB_meets) fun _ => ⟨_, _, rfl⟩

theorem parsecBody_meets (s : State) : (parsecBody s).MeetsParse s :=
  parse_meets
    (((((parseStart_meets s).bind fun _ h => (addressStageC_meets h).staged).bind fun _ h =>
      (start2StageC_meets h).staged).bind fun _ h => (controlStageC_meets h).staged).bind fun _ h =>
      (lengthStageC_meets h).staged)
    (fun _ => payloadStageC_meets) fun _ => ⟨_, _, rfl⟩

/-! ### Every command (R281) -/

/-- What every command's pseudocode does: it keeps the command's frame, and the invariant's parts, to its end or to
where it raises. -/
theorem commandBody_meets {i : Instr} (hi : IsCommand i) (s : State) :
    (commandBody s.cfg.val.hasEncoder i s).Meets
      (fun t => instrBeside i t = instrBeside i s ∧ Completes s t)
      (fun u => instrBeside i u = instrBeside i s ∧ Keeps s u) := by
  have hsame : ∀ u, u = s → instrBeside i u = instrBeside i s ∧ Keeps s u := by
    rintro u rfl
    exact ⟨rfl, id, id, id, id⟩
  have results : ∀ {x : Stage}, x.MeetsResults s → instrBeside i = State.besideResults →
      x.Meets (fun t => instrBeside i t = instrBeside i s ∧ Completes s t)
        (fun u => instrBeside i u = instrBeside i s ∧ Keeps s u) := fun hx hb =>
    hx.mono (fun t ht => ⟨by rw [hb]; exact ht, .of_results ht⟩) hsame
  cases i with
  | chksum => exact results (chksumBody_meets s) rfl
  | crc16 => exact results (crc16Body_meets s) rfl
  | bitx => exact results (bitxBody_meets s) rfl
  | dctl => exact results (dctlBody_meets s) rfl
  | nop | tblrd => exact ⟨rfl, .of_results rfl⟩
  | bitc =>
    refine (bitcBody_meets s).mono (fun t ⟨hb, hcomp, hcount⟩ => ⟨hb, .of_record hb, ?_, ?_, fun _ => hcomp, ?_⟩)
      fun u hu => ⟨hu, .of_record hu⟩
    · exact (view_eq State.parsing hb).trans
    · exact (view_eq State.walking hb).trans
    · exact fun _ _ => hcount
  | interp => exact interpBody_meets s
  | parsea => exact parseaBody_meets s
  | parseb => exact parsebBody_meets s
  | parsec => exact parsecBody_meets s
  | enca =>
    unfold commandBody
    cases henc : s.cfg.val.hasEncoder
    · exact .raiseStage (hsame s rfl)
    · exact (encaBody_meets henc).mono (fun t ht => ⟨ht.1, ht.2.1⟩) hsame
  | reserved0c | reserved10 | reserved20 | reserved40 | reserved80 => exact .raiseStage (hsame s rfl)
  | _ => exact absurd hi (not_command_of_word rfl)

@[simp] theorem besideParse_spoilControl (s : State) : (spoilControl s).besideParse = s.besideParse := rfl
@[simp] theorem besideParse_spoilRecord (s : State) : (spoilRecord s).besideParse = s.besideParse := rfl
@[simp] theorem besideParse_spoilPayload (s : State) : (spoilPayload s).besideParse = s.besideParse := rfl
@[simp] theorem besideParse_spoilFrame (s : State) : (spoilFrame s).besideParse = s.besideParse := rfl
@[simp] theorem besideParse_spoilAddress (s : State) : (spoilAddress s).besideParse = s.besideParse := rfl

/-- What the three PARSE commands spoil in common. -/
abbrev spoilParse (s : State) : State :=
  spoilAddress (spoilFrame (spoilPayload (spoilRecord (spoilControl s))))

theorem besideParse_spoilParse (s : State) : (spoilParse s).besideParse = s.besideParse := by
  simp only [besideParse_spoilAddress, besideParse_spoilFrame, besideParse_spoilPayload, besideParse_spoilRecord,
    besideParse_spoilControl]

/-- What an error leaves unspecified lies inside what the command writes. -/
theorem instrBeside_spoil (i : Instr) (e : Bool) (s : State) :
    instrBeside i (commandSpoil e i s) = instrBeside i s := by
  cases i with
  | enca => cases e <;> rfl
  | parsea | parseb | parsec => exact besideParse_spoilParse s
  | _ => rfl

theorem instrBeside_issueEnd (i : Instr) (s : State) :
    instrBeside i (issueEnd s) = issueEnd (instrBeside i s) := by
  cases i <;> rfl

/-- How a command issued in s ends in t: its pseudocode comes to u, there or by a `raise`, and STATUS says so; under
the frame F nothing else differs. -/
def Ends (F : State → State) (s t : State) : Prop :=
  ∃ u v, F u = F (issueBegin s) ∧ (v = u ∨ ∃ x sub field off, v = raise x sub field off u) ∧ F t = F (issueEnd v)

/-- Every command has a next state, and ends under its frame. -/
theorem exec_ends {i : Instr} (hi : IsCommand i) (s : State) :
    ∃ t, exec i s = .next t ∧ Ends (instrBeside i) s t := by
  refine ⟨_, exec_command hi s, ?_⟩
  have hbody := commandBody_meets hi (issueBegin s)
  rcases issue_cases (commandSpoil s.cfg.val.hasEncoder i) (commandBody s.cfg.val.hasEncoder i) s with
    ⟨t, ht, hend⟩ | ⟨t, ht, hend⟩
  · rw [issueBegin_cfg, ht] at hbody
    exact ⟨t, t, hbody.1, .inl rfl, by rw [hend]⟩
  · rw [issueBegin_cfg, ht] at hbody
    obtain ⟨x, sub, field, off, u, ⟨hu, -⟩, rfl⟩ := hbody
    exact ⟨u, _, hu, .inr ⟨x, sub, field, off, rfl⟩, by
      rw [hend, instrBeside_issueEnd, instrBeside_spoil, instrBeside_issueEnd]⟩

section
variable {α : Type} {i : Instr} {s t : State}

/-- What a command leaves unchanged: every view that sees no more than the command's frame and that neither issue nor
a `raise` touches. -/
theorem Ends.view_eq {F : State → State} (h : Ends F s t) (G : State → α)
    (hF : ∀ u, G (F u) = G u) (hbegin : ∀ u, G (issueBegin u) = G u) (hend : ∀ u, G (issueEnd u) = G u)
    (hraise : ∀ x sub field off u, G u = G s → G (raise x sub field off u) = G s) : G t = G s := by
  obtain ⟨u, v, hu, hv, ht⟩ := h
  have hGu : G u = G s := (Machine.view_eq G hu hF).trans (hbegin s)
  have hGt : G t = G v := (Machine.view_eq G ht hF).trans (hend v)
  rcases hv with rfl | ⟨x, sub, field, off, rfl⟩
  · exact hGt.trans hGu
  · exact hGt.trans (hraise x sub field off u hGu)

/-- The same for every instruction, DROM words included. -/
theorem exec_view_eq (h : exec i s = .next t) (G : State → α) (hF : ∀ u, G (instrBeside i u) = G u)
    (hbegin : ∀ u, G (issueBegin u) = G u) (hend : ∀ u, G (issueEnd u) = G u)
    (hraise : ∀ x sub field off u, G u = G s → G (raise x sub field off u) = G s) : G t = G s := by
  by_cases hi : IsCommand i
  · obtain ⟨t', ht', hends⟩ := exec_ends hi s
    obtain rfl : t' = t := Host.Outcome.next.inj (ht'.symm.trans h)
    exact hends.view_eq G hF hbegin hend hraise
  · have hwalk : ∀ u, G u.besideWalk = G u := by rwa [instrBeside_word hi] at hF
    have hbody := descriptor_meets hi s
    rw [exec_descriptor hi] at h
    obtain rfl : (descriptor i s).state = t := Host.Outcome.next.inj h
    cases hx : descriptor i s with
    | cont u =>
      rw [hx] at hbody
      exact Machine.view_eq G hbody hwalk
    | stop u =>
      rw [hx] at hbody
      obtain ⟨x, sub, field, off, v, hv, rfl⟩ := hbody
      exact hraise x sub field off v (Machine.view_eq G hv hwalk)

end

end Sys2Proof.Machine
end

section
/-! SUPPORT. The registers as the host reaches them: a read gives what the register map says (R25 to R36), a write
stores the low bits of an operand and nothing else (R285). -/

namespace Sys2Proof.Machine

open Sys2Proof.Spec

/-! ### Register reads -/

theorem statusByte_toNat (f : Status) : f.toByte.toNat = statusValue f := by
  obtain ⟨busy, done, err, ck, hk, miss, rec⟩ := f
  revert busy done err ck hk miss rec
  decide

theorem fsmCode_toNat (f : Fsm) : f.code.toNat = fsmNumber f := by cases f <;> rfl

theorem ismCode_toNat (f : Ism) : f.code.toNat = ismNumber f := by cases f <;> rfl

/-- The numbers in no table (R25 to R36), and CMD. -/
def Unlisted (n : Nat) : Prop := n = 0 ∨ (8 ≤ n ∧ n ≤ 0x0F) ∨ (0x1B ≤ n ∧ n ≤ 0x1F) ∨ 0x40 ≤ n

theorem registerValue_unlisted {n : Nat} (h : Unlisted n) (s : State) : registerValue s n = 0 := by
  unfold Unlisted at h
  unfold registerValue
  split <;> omega

theorem readControl_past {n : Nat} (h : 0x40 ≤ n) (s : State) : readControl n s = 0#32 := by
  unfold readControl
  split <;> first | omega | rfl

theorem readControl_toNat {n : Nat} (h : n < 0x10 ∨ 0x3E ≤ n) (s : State) :
    (readControl n s).toNat = registerValue s n := by
  by_cases hpast : 0x40 ≤ n
  · rw [readControl_past hpast, registerValue_unlisted (.inr (.inr (.inr hpast)))]
    rfl
  · have hlisted : n < 0x10 ∨ n = 0x3E ∨ n = 0x3F := by omega
    rcases hlisted with hlt | rfl | rfl
    · interval_cases n <;> simp (disch := omega) only [readControl, registerValue, BitVec.toNat_setWidth_of_le,
        statusByte_toNat, fsmCode_toNat, ismCode_toNat] <;> rfl
    · exact BitVec.toNat_setWidth_of_le (by decide)
    · exact BitVec.toNat_setWidth_of_le (by decide)

theorem readOperand_toNat {n : Nat} (hlo : 0x10 ≤ n) (hhi : n < 0x20) (s : State) :
    (readOperand n s).toNat = registerValue s n := by
  have hplace : n < 0x1A ∨ n = 0x1A ∨ 0x1B ≤ n := by omega
  rcases hplace with hlt | rfl | hgt
  · interval_cases n <;> simp (disch := omega) only [readOperand, registerValue, BitVec.toNat_setWidth_of_le]
  · show (if s.cfg.val.hasEncoder then s.seq.setWidth 32 else 0#32).toNat
      = if s.cfg.val.hasEncoder then s.seq.toNat else 0
    split
    · exact BitVec.toNat_setWidth_of_le (by decide)
    · rfl
  · rw [registerValue_unlisted (.inr (.inr (.inl ⟨hgt, by omega⟩)))]
    interval_cases n <;> rfl

theorem readResult_toNat {n : Nat} (hlo : 0x20 ≤ n) (hhi : n < 0x3E) (s : State) :
    (readResult n s).toNat = registerValue s n := by
  interval_cases n <;> simp (disch := omega) only [readResult, registerValue, BitVec.toNat_setWidth_of_le]

/-- A host read gives the register map's value, for every number. -/
theorem readReg_toNat (num : Byte) (s : State) : (readReg num s).toNat = registerValue s num.toNat := by
  unfold readReg
  split
  · exact readControl_toNat (.inl ‹_›) s
  · split
    · exact readOperand_toNat (by omega) ‹_› s
    · split
      · exact readResult_toNat (by omega) ‹_› s
      · exact readControl_toNat (.inr (by omega)) s

/-! ### Register writes -/

/-- A write of SEQ, which is absent without the encoder (R29). -/
theorem writeReg_seq (v : Word) (s : State) :
    writeReg 0x1A#8 v s = { s with seq := if s.cfg.val.hasEncoder then v.setWidth 8 else s.seq } := by
  show (if s.cfg.val.hasEncoder then { s with seq := v.setWidth 8 } else s) = _
  split <;> rfl

/-- A register write changes operands, and SEQ only with the encoder (R285). -/
theorem writeReg_eq (num : Byte) (v : Word) (s : State) :
    ∃ o q, writeReg num v s = { s with op := o, seq := q } ∧ (s.cfg.val.hasEncoder = false → q = s.seq) := by
  by_cases hseq : num = 0x1A#8
  · subst hseq
    exact ⟨_, _, writeReg_seq v s, fun hno => by rw [hno]; rfl⟩
  · have hother : num.toNat ≠ 0x1A := fun h => hseq (BitVec.eq_of_toNat_eq h)
    unfold writeReg
    split <;> first | omega | exact ⟨_, _, rfl, fun _ => rfl⟩

theorem readControl_writeReg (n : Nat) (num : Byte) (v : Word) (s : State) :
    readControl n (writeReg num v s) = readControl n s := by
  obtain ⟨o, q, hw, -⟩ := writeReg_eq num v s
  rw [hw]
  rfl

theorem readResult_writeReg (n : Nat) (num : Byte) (v : Word) (s : State) :
    readResult n (writeReg num v s) = readResult n s := by
  obtain ⟨o, q, hw, -⟩ := writeReg_eq num v s
  rw [hw]
  rfl

theorem readOperand_writeReg_other {n : Nat} {num : Byte} (hn : n ≠ num.toNat) (v : Word) (s : State) :
    readOperand n (writeReg num v s) = readOperand n s := by
  by_cases hseq : num = 0x1A#8
  · subst hseq
    have hother : n ≠ 0x1A := hn
    rw [writeReg_seq]
    unfold readOperand
    split <;> first | rfl | omega
  · have hseq' : num.toNat ≠ 0x1A := fun h => hseq (BitVec.eq_of_toNat_eq h)
    unfold writeReg
    split <;> first | omega | (unfold readOperand; split <;> first | rfl | omega)

theorem readReg_writeReg_other {n num : Byte} (hn : n ≠ num) (v : Word) (s : State) :
    readReg n (writeReg num v s) = readReg n s := by
  have hne : n.toNat ≠ num.toNat := fun h => hn (BitVec.eq_of_toNat_eq h)
  unfold readReg
  rw [readControl_writeReg, readResult_writeReg, readOperand_writeReg_other hne]

/-- A register of w bits that took v reads v's low bits (R285). -/
theorem setWidth_stored {w : Nat} (hw : w ≤ 32) (v : Word) :
    (v.setWidth w).setWidth 32 = BitVec.ofNat 32 (v.toNat % 2 ^ w) := by
  apply BitVec.eq_of_toNat_eq
  have hlt : v.toNat % 2 ^ w < 2 ^ 32 := Nat.lt_of_le_of_lt (Nat.mod_le _ _) v.isLt
  rw [BitVec.toNat_setWidth_of_le hw, BitVec.toNat_setWidth, BitVec.toNat_ofNat, Nat.mod_eq_of_lt hlt]

theorem operandWidth_unlisted {n : Nat} (h : n < 0x10 ∨ 0x1A < n) (s : State) : operandWidth s n = none := by
  unfold operandWidth
  split <;> first | omega | rfl

theorem writeReg_unlisted {num : Byte} (h : num.toNat < 0x10 ∨ 0x1A < num.toNat) (v : Word) (s : State) :
    writeReg num v s = s := by
  unfold writeReg
  split <;> first | omega | rfl

theorem readOperand_writeReg_same (num : Byte) (v : Word) (s : State) :
    readOperand num.toNat (writeReg num v s) =
      match operandWidth s num.toNat with
      | some width => BitVec.ofNat 32 (v.toNat % 2 ^ width)
      | none => readOperand num.toNat s := by
  have hplace : (0x10 ≤ num.toNat ∧ num.toNat ≤ 0x18) ∨ num = 0x19#8 ∨ num = 0x1A#8
      ∨ (num.toNat < 0x10 ∨ 0x1A < num.toNat) := by bv_omega
  rcases hplace with ⟨hlo, hhi⟩ | rfl | rfl | hunlisted
  · unfold writeReg
    generalize num.toNat = n at hlo hhi ⊢
    interval_cases n <;> exact setWidth_stored (by decide) v
  · show v = BitVec.ofNat 32 (v.toNat % 2 ^ 32)
    rw [Nat.mod_eq_of_lt v.isLt, BitVec.ofNat_toNat, BitVec.setWidth_eq]
  · rw [writeReg_seq]
    show (if s.cfg.val.hasEncoder then (if s.cfg.val.hasEncoder then v.setWidth 8 else s.seq).setWidth 32 else 0#32)
      = match (if s.cfg.val.hasEncoder then some 8 else none) with
        | some width => BitVec.ofNat 32 (v.toNat % 2 ^ width)
        | none => if s.cfg.val.hasEncoder then s.seq.setWidth 32 else 0#32
    split
    · exact setWidth_stored (by decide) v
    · rfl
  · rw [writeReg_unlisted hunlisted, operandWidth_unlisted hunlisted]

theorem readReg_writeReg_same (num : Byte) (v : Word) (s : State) :
    readReg num (writeReg num v s) =
      match operandWidth s num.toNat with
      | some width => BitVec.ofNat 32 (v.toNat % 2 ^ width)
      | none => readReg num s := by
  by_cases hop : 0x10 ≤ num.toNat ∧ num.toNat < 0x20
  · have hread : ∀ t, readReg num t = readOperand num.toNat t := fun t => by
      unfold readReg
      rw [if_neg (by omega), if_pos hop.2]
    rw [hread, hread]
    exact readOperand_writeReg_same num v s
  · rw [operandWidth_unlisted (by omega)]
    unfold readReg
    rw [readControl_writeReg, readResult_writeReg]
    split
    · rfl
    · rw [if_neg (by omega : ¬ num.toNat < 0x20), if_neg (by omega : ¬ num.toNat < 0x20)]

/-! ### Host reads (R280) -/

/-- What a host read answers; a write answers nothing. -/
def hostReply (s : State) : HostAccess → Option Reply
  | .regRead num => some (.reg (readReg num s))
  | .bufRead i => some (.byte (s.bufByte i.toNat))
  | .txRead i => some (.byte (s.txByte i.toNat))
  | .recRead i => some (.entry (s.recAt i.toNat))
  | .addr0Read i => some (.byte (s.addr0Byte i.toNat))
  | .addr1Read i => some (.byte (s.addr1Byte i.toNat))
  | .regWrite _ _ | .bufWrite _ _ => none

theorem hostReply_of_read {a : HostAccess} (hreg : ∀ num v, a ≠ .regWrite num v) (hbuf : ∀ i b, a ≠ .bufWrite i b)
    (s : State) : ∃ r, hostReply s a = some r := by
  cases a with
  | regWrite num v => exact absurd rfl (hreg num v)
  | bufWrite i b => exact absurd rfl (hbuf i b)
  | _ => exact ⟨_, rfl⟩

/-- An allowed read answers and changes nothing else (R64). -/
theorem perform_read {a : HostAccess} {s : State} {r : Reply} (ha : a.Allowed s) (hr : hostReply s a = some r) :
    perform a s = .next (answer r s) := by
  obtain ⟨-, hallowed⟩ := ha
  cases a with
  | regWrite | bufWrite => cases hr
  | regRead | recRead | addr0Read | addr1Read => rw [← Option.some.inj hr]; rfl
  | bufRead i =>
    rw [← Option.some.inj hr]
    exact if_pos hallowed
  | txRead i =>
    obtain ⟨henc, hcap⟩ := hallowed
    rw [← Option.some.inj hr]
    exact (if_pos henc).trans (if_pos hcap)

/-- Below REC_CNT a read of REC gives the entry stored there (R23). -/
theorem recAt_of_getElem? {s : State} {i : Nat} {e : RecEntry} (hi : i < s.res.recCnt.toNat)
    (he : s.recs[i]? = some e) : s.recAt i = e := by
  rw [State.recAt, if_pos hi, List.getD_eq_getElem?_getD, he, Option.getD_some]

/-! ### Reset (R43, R120) -/

theorem crcShift_eq_crcBit (c : Half) : crcShift c = crcBit c := by
  unfold crcShift crcBit crcPoly
  simp [BitVec.getLsbD, Nat.testBit_zero]

theorem crcShifts_eq_iterate (n : Nat) (c : Half) : crcShifts n c = crcBit^[n] c := by
  induction n generalizing c with
  | zero => rfl
  | succ n ih => rw [crcShifts, ih, crcShift_eq_crcBit, Function.iterate_succ_apply]

theorem registerValue_reset (c : WfConfig) (n : Nat) : registerValue (State.resetWith c) n = 0 := by
  unfold registerValue
  split
  case h_18 => split <;> rfl
  all_goals rfl

end Sys2Proof.Machine

open Sys2Proof Sys2Proof.Machine Sys2Proof.Spec

/-- Settles O9: the write keeps every other number and stores the low bits in its own. -/
theorem registerWriteReadBack : Obligations.RegisterWriteReadBack := by
  intro s num v rest hidle hnum hinbox
  refine ⟨writeReg num v { s with inbox := rest }, ?_, ?_, fun n hn => ?_, ?_⟩
  · rw [step_cons hinbox, access_of_idle (by exact hidle)]
    exact if_neg hnum
  · obtain ⟨o, q, hwrite, -⟩ := writeReg_eq num v { s with inbox := rest }
    rw [hwrite]
  · exact readReg_writeReg_other hn v { s with inbox := rest }
  · exact readReg_writeReg_same num v { s with inbox := rest }

/-- Settles O10: a read answers and does nothing else, and what it answers is the register map's value. -/
theorem hostReadsChangeNothing : Obligations.HostReadsChangeNothing := by
  refine ⟨fun s a rest hidle hinbox hallowed hreg hbuf => ?_, fun s num => readReg_toNat num s, fun s num h => ?_⟩
  · obtain ⟨r, hr⟩ := hostReply_of_read hreg hbuf s
    refine ⟨r, ?_, ?_⟩
    · rw [step_cons hinbox, access_of_idle (by exact hidle)]
      exact perform_read (s := { s with inbox := rest }) hallowed hr
    · refine ⟨?_, ?_, ?_, ?_, ?_, ?_⟩
      all_goals rintro i rfl
      case refine_6 =>
        intro hcount e he
        rw [← Option.some.inj hr, recAt_of_getElem? hcount he]
      all_goals exact (Option.some.inj hr).symm
  · exact BitVec.eq_of_toNat_eq ((readReg_toNat num s).trans (registerValue_unlisted h s))

/-- Settles O11, by read after write of the byte memories. -/
theorem bufWriteStores : Obligations.BufWriteStores := by
  intro s i b rest hidle hi hinbox
  refine ⟨{ s with buf := Memory.set s.buf i.toNat b, inbox := rest }, ?_, rfl, ?_, fun a ha => ?_, Memory.wf_set _ _ _⟩
  · rw [step_cons hinbox, access_of_idle (by exact hidle)]
    exact if_pos hi
  · simp only [State.bufByte, Memory.get?_set_same, Option.getD_some]
  · simp only [State.bufByte, Memory.get?_set_other _ _ _ _ ha]

/-- Settles O12: the register map is 0 after reset, and TBLRD's entry is the generator's eight iterations. -/
theorem resetValues : Obligations.ResetValues := by
  refine ⟨rfl, fun c => ⟨fun num => ?_, rfl, rfl, rfl, rfl, rfl, ⟨rfl, rfl, rfl, rfl⟩, fun b => ⟨_, rfl, ?_⟩⟩⟩
  · exact BitVec.eq_of_toNat_eq ((readReg_toNat num _).trans (registerValue_reset c num.toNat))
  · exact crcShifts_eq_iterate 8 (b.setWidth 16)

end

section
/-! SUPPORT. What follows from the frames: which registers each instruction leaves alone, how every command ends, and
the invariant from step to step. -/

namespace Sys2Proof.Machine

open Sys2Proof.Spec

/-! ### Errors and rest -/

/-- `raise` leaves the machine at rest, whatever was running (R296). -/
theorem raise_atRest (x : ErrName) (sub : Byte) (field : Half) (off : Nat) (s : State) :
    (raise x sub field off s).AtRest := by
  refine ⟨rfl, ?_, ?_, rfl⟩
  · unfold State.parsing
    rw [raise_fsm]
    cases hs : s.parsing
    · rwa [State.parsing] at hs
    · rfl
  · unfold State.walking
    rw [raise_ism]
    cases hs : s.walking
    · rwa [State.walking] at hs
    · rfl

theorem raise_fsm_of_rest {x : ErrName} {sub : Byte} {field : Half} {off : Nat} {s : State} (h : s.parsing = false) :
    (raise x sub field off s).fsm = s.fsm := by
  rw [raise_fsm, h]; rfl

theorem raise_ism_of_rest {x : ErrName} {sub : Byte} {field : Half} {off : Nat} {s : State} (h : s.walking = false) :
    (raise x sub field off s).ism = s.ism := by
  rw [raise_ism, h]; rfl

theorem code_bounds (x : ErrName) : 2 ≤ x.code.toNat ∧ x.code.toNat ≤ 9 := by
  cases x <;> decide

/-- The error registers agree with ERR when a command ends (R27, R281, R290). -/
theorem Ends.errors {F : State → State} {s t : State} (h : Ends F s t)
    (hF : ∀ u, ((F u).status.busy, (F u).status.done, (F u).status.err, (F u).err)
      = (u.status.busy, u.status.done, u.status.err, u.err)) :
    t.status.busy = false ∧ t.status.done = true ∧ t.ErrorsOk := by
  obtain ⟨u, v, hu, hv, ht⟩ := h
  have hview := Machine.view_eq (fun w => (w.status.busy, w.status.done, w.status.err, w.err)) ht hF
  have hbegin := Machine.view_eq (fun w => (w.status.busy, w.status.done, w.status.err, w.err)) hu hF
  simp only [Prod.mk.injEq] at hview hbegin
  obtain ⟨hbusy, hdone, herr, hregs⟩ := hview
  obtain ⟨-, -, huerr, huregs⟩ := hbegin
  refine ⟨hbusy, hdone, ?_⟩
  unfold State.ErrorsOk
  rw [herr, hregs]
  rcases hv with rfl | ⟨x, sub, field, off, rfl⟩
  · exact ⟨fun _ => huregs, fun hraised => absurd (huerr.symm.trans hraised) Bool.false_ne_true⟩
  · exact ⟨fun hno => absurd hno.symm Bool.false_ne_true, fun _ => code_bounds x⟩

theorem exec_command_errors {i : Instr} (hi : IsCommand i) (s : State) :
    ∃ t, exec i s = .next t ∧ t.status.busy = false ∧ t.status.done = true ∧ t.ErrorsOk := by
  obtain ⟨t, ht, hends⟩ := exec_ends hi s
  exact ⟨t, ht, hends.errors (by cases i <;> exact fun _ => rfl)⟩

/-- ENCA ends without an error exactly when it has counted SEQ up (R264, R303). -/
theorem exec_enca_seq {s t : State} (h : exec .enca s = .next t) :
    (t.status.err = false ∧ t.seq = s.seq + 1#8) ∨ (t.status.err = true ∧ t.seq = s.seq) := by
  obtain rfl := Host.Outcome.next.inj ((exec_command ⟨_, rfl⟩ s).symm.trans h)
  cases henc : s.cfg.val.hasEncoder
  · exact .inr ⟨rfl, rfl⟩
  · have hbody := encaBody_meets (s := issueBegin s) henc
    rcases issue_cases (commandSpoil true .enca) (commandBody true .enca) s with ⟨u, hu, hend⟩ | ⟨u, hu, hend⟩
    · rw [show encaBody (issueBegin s) = .cont u from hu] at hbody
      obtain ⟨hbeside, -, hseq⟩ := hbody
      rw [hend]
      exact .inl ⟨(view_eq (fun v => v.status.err) hbeside :), hseq⟩
    · rw [show encaBody (issueBegin s) = .stop u from hu] at hbody
      obtain ⟨x, sub, field, off, v, rfl, rfl⟩ := hbody
      rw [hend]
      exact .inr ⟨rfl, rfl⟩

/-! ### The invariant through a command -/

/-- What an error leaves unspecified is at most REC, results, flags of the record, the address arrays and TXBUF. -/
def State.besideSpoiled (s : State) : State :=
  { s with
    recs := [], status := s.status.recCleared, res := ResRegs.zero, addr0 := [], addr0Gen := 0, addr1 := []
    addr1Gen := 0, tx := [], txGen := 0, draws := 0 }

theorem besideSpoiled_spoilParse (s : State) : (spoilParse s).besideSpoiled = s.besideSpoiled :=
  calc (spoilParse s).besideSpoiled
      = (spoilFrame (spoilPayload (spoilRecord (spoilControl s)))).besideSpoiled := rfl
    _ = (spoilPayload (spoilRecord (spoilControl s))).besideSpoiled := rfl
    _ = (spoilRecord (spoilControl s)).besideSpoiled := rfl
    _ = (spoilControl s).besideSpoiled := rfl
    _ = s.besideSpoiled := rfl

theorem besideSpoiled_commandSpoil (e : Bool) (i : Instr) (s : State) :
    (commandSpoil e i s).besideSpoiled = s.besideSpoiled := by
  cases i with
  | enca => cases e <;> rfl
  | parsea | parseb | parsec => exact besideSpoiled_spoilParse s
  | _ => rfl

/-- The memories stay canonical: what is spoiled is emptied. -/
theorem commandSpoil_memoryOk {e : Bool} {i : Instr} {s : State} (h : s.MemoryOk) : (commandSpoil e i s).MemoryOk := by
  cases i
  case parsea | parseb | parsec =>
    exact memoryOk_of_address (besideParse_spoilParse s) (fun _ => ⟨⟨rfl, rfl⟩, rfl, rfl⟩) h
  case enca =>
    cases e
    · exact h
    · exact ⟨h.1, ⟨rfl, rfl⟩, h.2.2⟩
  all_goals exact h

theorem commandSpoil_encoderOk {i : Instr} {s : State} (h : s.EncoderOk) :
    (commandSpoil s.cfg.val.hasEncoder i s).EncoderOk := by
  cases i
  case parsea | parseb | parsec => exact (view_eq State.EncoderOk (besideParse_spoilParse s)).mpr h
  case enca =>
    unfold commandSpoil
    cases henc : s.cfg.val.hasEncoder
    · exact h
    · exact fun hno => absurd (hno.symm.trans henc) Bool.false_ne_true
  all_goals exact h

/-- After an error REC_VALID is 0 where REC is spoiled (R297), and REC stands as it did where it is not. -/
theorem commandSpoil_recordOk {e : Bool} {i : Instr} (hi : IsCommand i) {s u : State}
    (hu : instrBeside i u = instrBeside i s) (hs : s.RecordOk) (x : ErrName) (sub : Byte) (field : Half) (off : Nat) :
    (commandSpoil e i (raise x sub field off u)).RecordOk := by
  cases i
  case bitc | interp | parsea | parseb | parsec => exact fun hvalid => Bool.noConfusion hvalid
  case enca =>
    have hrec : u.RecordOk := (view_eq State.RecordOk (F := State.besideEncoder) hu).mpr hs
    cases e <;> exact hrec
  case endList | bin | bs | ascii | bcdDate | bcd | content | range | unknownTag =>
    exact absurd hi (not_command_of_word rfl)
  all_goals
    have hrec : u.RecordOk := (view_eq State.RecordOk (F := State.besideResults) hu).mpr hs
    exact hrec

theorem cfg_of_instrBeside {i : Instr} {s u : State} (h : instrBeside i u = instrBeside i s) : u.cfg = s.cfg :=
  view_eq State.cfg h (by cases i <;> exact fun _ => rfl)

/-- Every command leads from the invariant to the invariant. -/
theorem exec_command_inv {i : Instr} (hi : IsCommand i) {s t : State} (hs : s.Inv) (h : exec i s = .next t) :
    t.Inv := by
  obtain ⟨hrest, hmem, _, hrec, hlen, henc, hptr⟩ := hs
  obtain ⟨_, hpar, hwalk, hcomp⟩ := hrest
  have herrors : t.ErrorsOk := by
    obtain ⟨t', ht', _, _, herr⟩ := exec_command_errors hi s
    obtain rfl := Host.Outcome.next.inj (ht'.symm.trans h)
    exact herr
  obtain rfl := Host.Outcome.next.inj ((exec_command hi s).symm.trans h)
  have hbody := commandBody_meets hi (issueBegin s)
  rcases issue_cases (commandSpoil s.cfg.val.hasEncoder i) (commandBody s.cfg.val.hasEncoder i) s with
    ⟨u, hu, hend⟩ | ⟨u, hu, hend⟩
  · rw [issueBegin_cfg, hu] at hbody
    obtain ⟨-, hdone⟩ := hbody
    rw [hend] at herrors ⊢
    exact ⟨⟨rfl, hdone.parsing hpar, hdone.walking hwalk, hdone.comp hcomp⟩, hdone.memory hmem, herrors,
      hdone.record hrec, hdone.length hlen, hdone.encoder henc, hdone.pointer hptr⟩
  · rw [issueBegin_cfg, hu] at hbody
    obtain ⟨x, sub, field, off, u, ⟨hbeside, hkeeps⟩, rfl⟩ := hbody
    rw [hend] at herrors ⊢
    have hspoil := besideSpoiled_commandSpoil s.cfg.val.hasEncoder i (raise x sub field off u)
    obtain ⟨-, hpar', hwalk', hcomp'⟩ := raise_atRest x sub field off u
    have hencoder := commandSpoil_encoderOk (i := i) (s := raise x sub field off u) (hkeeps.encoder henc)
    rw [raise_cfg, cfg_of_instrBeside hbeside] at hencoder
    exact ⟨⟨rfl, (view_eq State.parsing hspoil).trans hpar', (view_eq State.walking hspoil).trans hwalk',
        (view_eq State.comp hspoil).trans hcomp'⟩,
      commandSpoil_memoryOk (hkeeps.memory hmem), herrors, commandSpoil_recordOk hi hbeside hrec x sub field off,
      (view_eq State.LengthOk hspoil).mpr (hkeeps.length hlen), hencoder,
      (view_eq State.PointerOk hspoil).mpr (hkeeps.pointer hptr)⟩

/-! ### The invariant through a host access -/

theorem writeReg_inv {num : Byte} {v : Word} {s : State} (h : s.Inv) : (writeReg num v s).Inv := by
  obtain ⟨o, q, hw, hq⟩ := writeReg_eq num v s
  rw [hw]
  refine ⟨h.atRest, h.memory, h.errors, h.record, h.length, fun hno => ?_, h.pointer⟩
  obtain ⟨htx, hseq, hlen⟩ := h.encoder hno
  exact ⟨htx, (hq hno).trans hseq, hlen⟩

theorem answer_inv {r : Reply} {s : State} (h : s.Inv) : (answer r s).Inv :=
  ⟨h.atRest, h.memory, h.errors, h.record, h.length, h.encoder, h.pointer⟩

theorem bufWrite_inv {i : Nat} {b : Byte} {s : State} (hi : i < s.cfg.val.bufCap) (h : s.Inv) :
    State.Inv { s with buf := Memory.set s.buf i b } := by
  obtain ⟨⟨hwf, hbelow⟩, hmem⟩ := h.memory
  exact ⟨h.atRest, ⟨⟨Memory.wf_set _ _ _ hwf, Memory.below_set _ _ _ _ hbelow hi⟩, hmem⟩, h.errors, h.record, h.length,
    h.encoder, h.pointer⟩

/-- What a host access can do: run a command, write a register or a byte of BUF, or answer (R280). -/
theorem perform_cases {a : HostAccess} {s t : State} (h : perform a s = .next t) :
    (∃ v : Word, exec (decodeCmd (v.setWidth 8)) s = .next t) ∨ (∃ num v, t = writeReg num v s)
      ∨ (∃ i b, i < s.cfg.val.bufCap ∧ t = { s with buf := Memory.set s.buf i b }) ∨ ∃ r, t = answer r s := by
  cases a with
  | regWrite num v =>
    unfold perform at h
    dsimp only at h
    split at h
    · exact .inl ⟨v, h⟩
    · exact .inr (.inl ⟨num, v, (Host.Outcome.next.inj h).symm⟩)
  | bufWrite i b =>
    unfold perform at h
    dsimp only at h
    split at h
    · exact .inr (.inr (.inl ⟨i.toNat, b, ‹_›, (Host.Outcome.next.inj h).symm⟩))
    · cases h
  | bufRead i =>
    unfold perform at h
    dsimp only at h
    split at h
    · exact .inr (.inr (.inr ⟨_, (Host.Outcome.next.inj h).symm⟩))
    · cases h
  | txRead i =>
    unfold perform accessTx at h
    dsimp only at h
    split at h
    · split at h
      · exact .inr (.inr (.inr ⟨_, (Host.Outcome.next.inj h).symm⟩))
      · cases h
    · cases h
  | regRead | recRead | addr0Read | addr1Read => exact .inr (.inr (.inr ⟨_, (Host.Outcome.next.inj h).symm⟩))

theorem perform_inv {a : HostAccess} {s t : State} (hs : s.Inv) (h : perform a s = .next t) : t.Inv := by
  rcases perform_cases h with ⟨v, hexec⟩ | ⟨num, v, rfl⟩ | ⟨i, b, hi, rfl⟩ | ⟨r, rfl⟩
  · exact exec_command_inv (decodeCmd_command _) hs hexec
  · exact writeReg_inv hs
  · exact bufWrite_inv hi hs
  · exact answer_inv hs

theorem resetWith_inv (c : WfConfig) : (State.resetWith c).Inv where
  atRest := ⟨rfl, rfl, rfl, rfl⟩
  memory := ⟨⟨rfl, rfl⟩, ⟨rfl, rfl⟩, ⟨rfl, rfl⟩, rfl, rfl⟩
  errors := ⟨fun _ => rfl, fun h => Bool.noConfusion h⟩
  record h := Bool.noConfusion h
  length := lengthOk_of_zero rfl
  encoder _ := ⟨rfl, rfl, rfl⟩
  pointer h := Bool.noConfusion h

end Sys2Proof.Machine

open Sys2Proof Sys2Proof.Machine Sys2Proof.Spec

/-- Settles O15: BUF, the operands, the configuration, the accesses to come and the reply lie in every frame. -/
theorem instructionsLeaveHostInputs : Obligations.InstructionsLeaveHostInputs := by
  intro i s t h
  have hview := exec_view_eq h (fun u => (u.buf, u.op, u.cfg, u.inbox, u.reply)) (by cases i <;> exact fun _ => rfl)
    (fun _ => rfl) (fun _ => rfl) (fun _ _ _ _ _ h => h)
  simp only [Prod.mk.injEq] at hview
  obtain ⟨hbuf, hop, hcfg, hinbox, hreply⟩ := hview
  exact ⟨fun a => by rw [State.bufByte, State.bufByte, hbuf], hbuf, hop, hcfg, hinbox, hreply⟩

/-- Settles O16: FSM lies in the frame of every instruction but PARSE, and an error at rest does not move it. -/
theorem onlyParseMovesFsm : Obligations.OnlyParseMovesFsm := by
  intro i s t ⟨_, hpar, _⟩ hparse h
  refine exec_view_eq h State.fsm ?_ (fun _ => rfl) (fun _ => rfl) fun x sub field off u hu => ?_
  · rcases instrBeside_cases hparse with hF | hF | ⟨-, hF⟩ | ⟨-, hF⟩ | ⟨-, hF⟩
    all_goals
      rw [hF]
      exact fun _ => rfl
  · have hrest : u.parsing = false := by rwa [State.parsing, hu, ← State.parsing]
    exact (raise_fsm_of_rest hrest).trans hu

/-- Settles O17: ISM, CUR, DP and the length latch lie in the frame of every command that runs no interpreter. -/
theorem onlyInterpreterMovesItsRegisters : Obligations.OnlyInterpreterMovesItsRegisters := by
  intro i s t ⟨_, _, hwalk, _⟩ hi hparse hinterp h
  have hview := exec_view_eq h (fun u => (u.ism, u.cur, u.dp, u.lenVld, u.lenVal)) ?_ (fun _ => rfl) (fun _ => rfl) ?_
  · simpa only [Prod.mk.injEq] using hview
  · rcases instrBeside_cases hparse with hF | hF | ⟨-, hF⟩ | ⟨hno, -⟩ | ⟨hno, -⟩
    case inr.inr.inr.inl => exact absurd hno hinterp
    case inr.inr.inr.inr => exact absurd hi hno
    all_goals
      rw [hF]
      exact fun _ => rfl
  · intro x sub field off u hu
    have hism : u.ism = s.ism := congrArg Prod.fst hu
    have hrest : u.walking = false := by rwa [State.walking, hism, ← State.walking]
    rw [← hu, raise_ism_of_rest hrest]
    rfl

/-- Settles O20: the flags lie in the frames of the commands that do not own them, and no error touches them. -/
theorem flagsBelongToTheirCommands : Obligations.FlagsBelongToTheirCommands := by
  intro i s t hi hparse h
  have hflags := exec_view_eq h (fun u => (u.status.ckValid, u.status.hkValid, u.status.dictMiss)) ?_
    (fun _ => rfl) (fun _ => rfl) (fun _ _ _ _ _ h => h)
  · simp only [Prod.mk.injEq] at hflags
    obtain ⟨hck, hhk, hmiss⟩ := hflags
    refine ⟨hck, hhk, hmiss, fun hinterp hbitc => ?_⟩
    refine exec_view_eq h (fun u => u.status.recValid) ?_ (fun _ => rfl) (fun _ => rfl) (fun _ _ _ _ _ h => h)
    rcases instrBeside_cases hparse with hF | hF | ⟨hno, -⟩ | ⟨hno, -⟩ | ⟨hno, -⟩
    case inr.inr.inl => exact absurd hno hbitc
    case inr.inr.inr.inl => exact absurd hno hinterp
    case inr.inr.inr.inr => exact absurd hi hno
    all_goals
      rw [hF]
      exact fun _ => rfl
  · rcases instrBeside_cases hparse with hF | hF | ⟨-, hF⟩ | ⟨-, hF⟩ | ⟨-, hF⟩
    all_goals
      rw [hF]
      exact fun _ => rfl

/-- Settles O18: SEQ lies in every frame but ENCA's, and ENCA counts exactly when it does not raise. -/
theorem seqCountsSuccessfulEncodes : Obligations.SeqCountsSuccessfulEncodes := by
  intro i s t h
  by_cases henca : i = .enca
  · subst henca
    rcases exec_enca_seq h with ⟨herr, hseq⟩ | ⟨herr, hseq⟩
    · exact ⟨fun _ => hseq, fun hno => absurd ⟨rfl, herr⟩ hno⟩
    · exact ⟨fun hyes => absurd (hyes.2.symm.trans herr) Bool.false_ne_true, fun _ => hseq⟩
  · refine ⟨fun hyes => absurd hyes.1 henca, fun _ => ?_⟩
    refine exec_view_eq h State.seq ?_ (fun _ => rfl) (fun _ => rfl) fun _ _ _ _ _ hu => hu
    cases i
    case enca => exact absurd rfl henca
    all_goals exact fun _ => rfl

/-- Settles O19: STATUS and the error registers lie in every command's frame but for issue, `raise` and the end. -/
theorem everyCommandEnds : Obligations.EveryCommandEnds := fun _ s hi => exec_command_errors hi s

/-- Settles O13: nothing is stored, running or raised after reset. -/
theorem resetMeetsInvariant : Obligations.ResetMeetsInvariant := resetWith_inv

/-- Settles O14, access by access; a write of CMD runs one whole command. -/
theorem stepKeepsInvariant : Obligations.StepKeepsInvariant := by
  intro s t hs h
  cases hinbox : s.inbox with
  | nil =>
    have hwait : step s = .next s := by simp [step, takeAccess, hinbox]
    obtain rfl := Host.Outcome.next.inj (hwait.symm.trans h)
    exact hs
  | cons a rest =>
    have htaken : State.Inv { s with inbox := rest } :=
      ⟨hs.atRest, hs.memory, hs.errors, hs.record, hs.length, hs.encoder, hs.pointer⟩
    rw [step_cons hinbox, access_of_idle htaken.atRest.1] at h
    exact perform_inv htaken h
end

section
/-! SUPPORT. Two runs: a command whose BUF is exchanged for one that agrees with it below BUF_LEN does the same. -/

namespace Sys2Proof.Machine

open Sys2Proof.Spec

/-! ### BUF exchanged for other contents -/

/-- The state with other contents of BUF. -/
def State.withBuf (m : Memory) (s : State) : State := { s with buf := m }

@[simp] theorem withBuf_cur (m : Memory) (s : State) : (s.withBuf m).cur = s.cur := rfl
@[simp] theorem withBuf_op (m : Memory) (s : State) : (s.withBuf m).op = s.op := rfl
@[simp] theorem withBuf_comp (m : Memory) (s : State) : (s.withBuf m).comp = s.comp := rfl
@[simp] theorem withBuf_ism (m : Memory) (s : State) : (s.withBuf m).ism = s.ism := rfl
@[simp] theorem withBuf_dpIndex (m : Memory) (s : State) : (s.withBuf m).dpIndex = s.dpIndex := rfl
@[simp] theorem withBuf_dromWord (m : Memory) (s : State) (i : Nat) : (s.withBuf m).dromWord i = s.dromWord i := rfl

def Stage.withBuf (m : Memory) : Stage → Stage
  | .cont s => .cont (s.withBuf m)
  | .stop s => .stop (s.withBuf m)

/-- m reads as BUF does below n. -/
def Agrees (m : Memory) (n : Nat) (s : State) : Prop := ∀ a, a < n → (s.withBuf m).bufByte a = s.bufByte a

/-- From s the stage runs the same with BUF exchanged for m. -/
def Blind (m : Memory) (f : State → Stage) (s : State) : Prop := f (s.withBuf m) = (f s).withBuf m

section
variable {m : Memory} {s : State}

theorem Agrees.bufRange {n a k : Nat} (h : Agrees m n s) (hk : a + k ≤ n) :
    (s.withBuf m).bufRange a k = s.bufRange a k :=
  bufRange_congr fun i _ hi => h i (by omega)

/-- The range [a..e), empty or not. -/
theorem Agrees.range {n a e : Nat} (h : Agrees m n s) (he : e ≤ n) :
    (s.withBuf m).bufRange a (e - a) = s.bufRange a (e - a) :=
  bufRange_congr fun i _ hi => h i (by omega)

theorem Agrees.checksum {n a e : Nat} (h : Agrees m n s) (he : e ≤ n) :
    (s.withBuf m).checksum a e = s.checksum a e :=
  congrArg sum8 (h.range he)

theorem Agrees.crc16 {n a e : Nat} (h : Agrees m n s) (he : e ≤ n) : (s.withBuf m).crc16 a e = s.crc16 a e :=
  congrArg crc16Of (h.range he)

theorem Agrees.bufLe16 {n a : Nat} (h : Agrees m n s) (ha : a + 2 ≤ n) : (s.withBuf m).bufLe16 a = s.bufLe16 a :=
  congrArg (fun bs => BitVec.ofNat 16 (le bs)) (h.bufRange ha)

theorem Agrees.payRange {n a k : Nat} (h : Agrees m n s) (hk : a + k ≤ n) :
    (s.withBuf m).payRange a k = s.payRange a k := by
  rw [payRange_eq, payRange_eq, h.bufRange hk]
  rfl

theorem Agrees.pay {n a : Nat} (h : Agrees m n s) (ha : a < n) : (s.withBuf m).pay a = s.pay a :=
  congrArg (· - s.res.deobf) (h a ha)

/-- A sequence is blind if its parts are; the second may use what the first establishes. -/
theorem Blind.bind {P E : State → Prop} {f g : State → Stage} (hmeets : (f s).Meets P E) (hf : Blind m f s)
    (hg : ∀ t, P t → Blind m g t) : Blind m (fun s => (f s).bind g) s := by
  unfold Blind at hf ⊢
  dsimp only
  rw [hf]
  cases hx : f s with
  | stop t => rfl
  | cont t =>
    rw [hx] at hmeets
    exact hg t hmeets

theorem guard_withBuf {c c' : Prop} [Decidable c] [Decidable c'] {x : ErrName} {sub : Byte} {field : Half} {off : Nat}
    {y y' : Stage} (hc : c' ↔ c) (hy : ¬ c → y' = y.withBuf m) :
    (if c' then raiseStage x sub field off (s.withBuf m) else y')
      = (if c then raiseStage x sub field off s else y).withBuf m := by
  by_cases h : c
  · rw [if_pos h, if_pos (hc.mpr h)]
    rfl
  · rw [if_neg h, if_neg (mt hc.mp h)]
    exact hy h

theorem bufCheck_blind : Blind m bufCheck s :=
  guard_withBuf Iff.rfl fun _ => rfl

theorem need_blind (name : Half) (n : Nat) : Blind m (need name n) s :=
  guard_withBuf Iff.rfl fun _ => rfl

/-! ### The interpreter -/

theorem setDp_withBuf (n : Nat) : State.setDp n (s.withBuf m) = (State.setDp n s).withBuf m := by
  unfold State.setDp
  split <;> rfl

theorem advance_withBuf (b w : Nat) : advance b w (s.withBuf m) = (advance b w s).withBuf m := by
  unfold advance
  rw [withBuf_dpIndex, setDp_withBuf]
  rfl

theorem latchLength_withBuf (h : Head) (v : Nat) : latchLength h v (s.withBuf m) = (latchLength h v s).withBuf m := by
  unfold latchLength
  split <;> rfl

theorem rangeBody_blind (r : RangeFields) : Blind m (rangeBody r) s := by
  unfold Blind rangeBody
  rw [withBuf_comp]
  cases s.comp with
  | none => rfl
  | some c => exact guard_withBuf Iff.rfl fun _ => guard_withBuf Iff.rfl fun _ => rfl

theorem rangeFetch_blind : Blind m rangeFetch s := by
  unfold Blind rangeFetch
  rw [withBuf_comp]
  cases s.comp with
  | none => rfl
  | some c =>
    dsimp only
    rw [withBuf_dromWord]
    cases s.dromWord c.pos with
    | none => rfl
    | some w =>
      dsimp only
      split
      · exact rangeBody_blind _
      · rfl

theorem rangeWords_blind (k : Nat) (s : State) : Blind m (rangeWords k) s := by
  induction k generalizing s with
  | zero => rfl
  | succ k ih =>
    show (rangeFetch (s.withBuf m)).bind _ = ((rangeFetch s).bind _).withBuf m
    rw [rangeFetch_blind]
    cases rangeFetch s with
    | cont t => exact ih t
    | stop t => rfl

theorem composite_blind (b : Byte) (p k : Nat) : Blind m (composite b p k) s :=
  rangeWords_blind k { s with comp := some ⟨b, p + 1, []⟩ }

/-- m agrees with BUF up to P_END, past which a walk reads nothing (R164, R182). -/
abbrev AgreesToEnd (m : Memory) (s : State) : Prop := Agrees m s.res.pEnd.toNat s

/-- A descriptor of one word that emits the same value does the same. -/
theorem emit_advance_withBuf {name : Half} {v v' : RecValue} {b : Nat} (hv : v' = v) :
    Stage.cont (advance b 1 (emit name v' (s.withBuf m)))
      = (Stage.cont (advance b 1 (emit name v s))).withBuf m := by
  rw [hv]
  exact congrArg Stage.cont (advance_withBuf (s := emit name v s) b 1)

theorem latch_advance_withBuf {h : Head} {v v' b : Nat} (hv : v' = v) :
    Stage.cont (advance b 1 (latchLength h v' (emit h.name (.bin h.size v') (s.withBuf m))))
      = (Stage.cont (advance b 1 (latchLength h v (emit h.name (.bin h.size v) s)))).withBuf m := by
  rw [hv, show emit h.name (.bin h.size v) (s.withBuf m) = (emit h.name (.bin h.size v) s).withBuf m from rfl,
    latchLength_withBuf, advance_withBuf]
  rfl

theorem binBody_blind (h : Head) (ha : AgreesToEnd m s) : Blind m (binBody h) s := by
  refine guard_withBuf Iff.rfl fun _ => Blind.bind (need_meets ..) (need_blind ..) ?_
  rintro t ⟨rfl, hfit⟩
  exact latch_advance_withBuf (congrArg le (ha.payRange hfit))

theorem asciiBody_blind (h : Head) (ha : AgreesToEnd m s) : Blind m (asciiBody h) s := by
  refine guard_withBuf Iff.rfl fun _ => Blind.bind (need_meets ..) (need_blind ..) ?_
  rintro t ⟨rfl, hfit⟩
  exact emit_advance_withBuf (congrArg (fun bs => RecValue.ascii (bs.map t.glyph)) (ha.payRange hfit))

theorem bcdDateBody_blind (h : Head) (ha : AgreesToEnd m s) : Blind m (bcdDateBody h) s := by
  refine guard_withBuf Iff.rfl fun _ => Blind.bind (need_meets ..) (need_blind ..) ?_
  rintro t ⟨rfl, hfit⟩
  have hy : (t.withBuf m).pay t.cur.toNat = t.pay t.cur.toNat := ha.pay (by omega)
  have hm : (t.withBuf m).pay (t.cur.toNat + 1) = t.pay (t.cur.toNat + 1) := ha.pay (by omega)
  have hd : (t.withBuf m).pay (t.cur.toNat + 2) = t.pay (t.cur.toNat + 2) := ha.pay (by omega)
  unfold Blind
  dsimp only
  exact emit_advance_withBuf (by rw [withBuf_cur, hy, hm, hd])

theorem bcdBody_blind (h : Head) (ha : AgreesToEnd m s) : Blind m (bcdBody h) s := by
  refine guard_withBuf Iff.rfl fun _ => Blind.bind (need_meets ..) (need_blind ..) ?_
  rintro t ⟨rfl, hfit⟩
  have hfst : (t.withBuf m).pay t.cur.toNat = t.pay t.cur.toNat := ha.pay (by omega)
  have hsnd : (t.withBuf m).pay (t.cur.toNat + 1) = t.pay (t.cur.toNat + 1) := ha.pay (by omega)
  unfold Blind
  dsimp only
  exact emit_advance_withBuf (by rw [withBuf_cur, hfst, hsnd])

theorem contentBody_blind (h : Head) (ha : AgreesToEnd m s) : Blind m (contentBody h) s := by
  refine guard_withBuf Iff.rfl fun _ => guard_withBuf Iff.rfl fun _ => Blind.bind (need_meets ..) (need_blind ..) ?_
  rintro t ⟨rfl, hfit⟩
  exact emit_advance_withBuf (congrArg RecValue.content (ha.payRange hfit))

theorem bsBody_blind (h : Head) (ha : AgreesToEnd m s) : Blind m (bsBody h) s := by
  refine guard_withBuf Iff.rfl fun _ => Blind.bind (need_meets ..) (need_blind ..) ?_
  rintro t ⟨rfl, hfit⟩
  have hb : (t.withBuf m).pay t.cur.toNat = t.pay t.cur.toNat := ha.pay (by omega)
  unfold Blind
  dsimp only
  rw [withBuf_cur, hb]
  refine Blind.bind (composite_meets (t.pay t.cur.toNat) t.dpIndex h.size.toNat t) (composite_blind _ _ _) fun u _ => ?_
  exact congrArg Stage.cont
    (advance_withBuf (s := { emit h.name (.bs (t.pay t.cur.toNat) u.subs) u with comp := none }) _ _)

theorem descriptor_blind (i : Instr) (ha : AgreesToEnd m s) : Blind m (descriptor i) s := by
  cases i with
  | endList h => exact guard_withBuf Iff.rfl fun _ => rfl
  | bin h => exact binBody_blind h ha
  | bs h => exact bsBody_blind h ha
  | ascii h => exact asciiBody_blind h ha
  | bcdDate h => exact bcdDateBody_blind h ha
  | bcd h => exact bcdBody_blind h ha
  | content h => exact contentBody_blind h ha
  | range r => exact rangeBody_blind r
  | _ => rfl

theorem walkTurn_blind (ha : AgreesToEnd m s) : Blind m walkTurn s := by
  unfold Blind walkTurn
  rw [withBuf_dpIndex, withBuf_dromWord]
  cases s.dromWord s.dpIndex with
  | none => rfl
  | some w => exact descriptor_blind (s := { s with ism := .exec }) (decodeDesc w) ha

/-- One turn writes the walk's own registers only, errors apart. -/
theorem walkTurn_beside (s : State) :
    (walkTurn s).Meets (fun t => t.besideWalk = s.besideWalk) (fun u => u.besideWalk = s.besideWalk) := by
  unfold walkTurn
  split
  · exact .raiseStage rfl
  · next w _ => exact descriptor_meets (decodeDesc_not_command w) { s with ism := .exec }

theorem walk_blind (fuel : Nat) (ha : AgreesToEnd m s) : Blind m (walk fuel) s := by
  induction fuel generalizing s with
  | zero => rfl
  | succ n ih =>
    refine Blind.bind (walkTurn_beside s) (walkTurn_blind ha) fun t ht => ?_
    have hagree : AgreesToEnd m t := (view_eq (AgreesToEnd m) ht).mpr ha
    unfold Blind
    dsimp only
    rw [withBuf_ism]
    cases t.ism with
    | fetch => exact ih hagree
    | _ => rfl

theorem interpret_blind (base : Half) (ha : AgreesToEnd m s) : Blind m (interpret base) s :=
  walk_blind (s := interpretBegin base s) (s.dromSize + 1) ha

end

/-! ### The commands that read BUF -/

/-- m agrees with BUF below BUF_LEN (R62). -/
abbrev AgreesInFrame (m : Memory) (s : State) : Prop := Agrees m s.frameLen s

section
variable {m : Memory} {s : State}

theorem chksumBody_blind (ha : AgreesInFrame m s) : Blind m chksumBody s := by
  unfold Blind chksumBody
  rw [withBuf_op]
  split
  · rfl
  · refine Blind.bind (bufCheck_meets s) bufCheck_blind ?_
    rintro t ⟨rfl, _⟩
    refine guard_withBuf Iff.rfl fun hend => ?_
    exact congrArg (fun x => Stage.cont { t.withBuf m with res := { t.res with rSum := x } })
      (ha.checksum (Nat.le_of_not_lt hend))

theorem crc16Body_blind (ha : AgreesInFrame m s) : Blind m crc16Body s := by
  unfold Blind crc16Body
  rw [withBuf_op]
  split
  · rfl
  · refine Blind.bind (bufCheck_meets s) bufCheck_blind ?_
    rintro t ⟨rfl, _⟩
    refine guard_withBuf Iff.rfl fun hend => ?_
    exact congrArg (fun x => Stage.cont { t.withBuf m with res := { t.res with rCrc := x } })
      (ha.crc16 (Nat.le_of_not_lt hend))

theorem dctlBody_blind : Blind m dctlBody s := by
  unfold Blind dctlBody
  rw [withBuf_op]
  cases s.op.proto <;> rfl

theorem bitcHead_blind (h : Head) : Blind m (bitcHead h) s := by
  refine guard_withBuf Iff.rfl fun _ => ?_
  exact Blind.bind (composite_meets s.op.opByte s.op.opPtr.toNat h.size.toNat s) (composite_blind _ _ _) fun _ _ => rfl

theorem bitcBody_blind : Blind m bitcBody s := by
  unfold Blind bitcBody
  dsimp only
  rw [show State.dromWord { s.withBuf m with status := (s.withBuf m).status.recCleared }
      (s.withBuf m).op.opPtr.toNat = State.dromWord { s with status := s.status.recCleared } s.op.opPtr.toNat from rfl]
  split
  · rfl
  · next w _ =>
    split
    · exact bitcHead_blind (s := { s with status := s.status.recCleared }) (wordHead w)
    · rfl

theorem rangeBad_eq_false {o : OpRegs} (h : ¬ o.rangeBad = true) :
    o.opStart.toNat ≤ o.opEnd.toNat ∧ o.opEnd.toNat ≤ o.bufLen.toNat := by
  simp only [OpRegs.rangeBad, Bool.or_eq_true, decide_eq_true_eq, not_or, Nat.not_lt] at h
  exact h

theorem interpBody_blind (ha : AgreesInFrame m s) : Blind m interpBody s := by
  refine Blind.bind (bufCheck_meets s) bufCheck_blind ?_
  rintro t ⟨rfl, _⟩
  unfold Blind
  dsimp only
  exact guard_withBuf (s := { t with status := t.status.recCleared }) Iff.rfl fun hbad =>
    interpret_blind (s := { t with
      status := t.status.recCleared
      res := { t.res with pStart := t.op.opStart, pEnd := t.op.opEnd, deobf := 0#8 } }) _
      fun a hlt => ha a (Nat.lt_of_lt_of_le hlt (rangeBad_eq_false hbad).2)

theorem encaBody_blind (ha : AgreesInFrame m s) : Blind m encaBody s := by
  refine Blind.bind (bufCheck_meets s) bufCheck_blind ?_
  rintro t ⟨rfl, _⟩
  refine guard_withBuf Iff.rfl fun hbad => guard_withBuf Iff.rfl fun _ => ?_
  have hbytes : (t.withBuf m).bufRange t.op.opStart.toNat t.encPayloadLen
      = t.bufRange t.op.opStart.toNat t.encPayloadLen :=
    ha.range (rangeBad_eq_false hbad).2
  have hbody : (t.withBuf m).encBody = t.encBody := congrArg (_ ++ ·) hbytes
  have hframe : (t.withBuf m).encFrame = t.encFrame :=
    congrArg (fun bs => [0x68#8, BitVec.ofNat 8 t.encFrameLen, BitVec.ofNat 8 (t.encFrameLen / 256)] ++ bs
      ++ [sum8 bs, 0x16#8]) hbody
  exact congrArg (fun bs => Stage.cont
    { storeFrame (t.withBuf m) with tx := Memory.ofBytes 0 bs, seq := t.seq + 1#8 }) hframe

end

/-! ### The stages of the frame parsers, read for read -/

section
variable {m : Memory} {s : State}

@[simp] theorem withBuf_frameLen (m : Memory) (s : State) : (s.withBuf m).frameLen = s.frameLen := rfl
@[simp] theorem withBuf_trailerA (m : Memory) (s : State) : (s.withBuf m).trailerA = s.trailerA := rfl
@[simp] theorem withBuf_trailerB (m : Memory) (s : State) : (s.withBuf m).trailerB = s.trailerB := rfl
@[simp] theorem withBuf_trailerC (m : Memory) (s : State) : (s.withBuf m).trailerC = s.trailerC := rfl
@[simp] theorem withBuf_funcAtA (m : Memory) (s : State) : (s.withBuf m).funcAtA = s.funcAtA := rfl
@[simp] theorem withBuf_hasAddrA (m : Memory) (s : State) : (s.withBuf m).hasAddrA = s.hasAddrA := rfl
@[simp] theorem enter_withBuf (f : Fsm) (m : Memory) (s : State) :
    (s.withBuf m).enter f = (s.enter f).withBuf m := rfl

theorem AgreesInFrame.byte {a : Nat} (h : AgreesInFrame m s) (ha : a < s.frameLen) :
    (s.withBuf m).bufByte a = s.bufByte a := h a ha

theorem setAddr0_withBuf {a n : Nat} (h : AgreesInFrame m s) (hn : a + n ≤ s.frameLen) :
    setAddr0 a n (s.withBuf m) = (setAddr0 a n s).withBuf m := by
  unfold setAddr0
  rw [h.bufRange hn]
  rfl

theorem setAddr1_withBuf {a n : Nat} (h : AgreesInFrame m s) (hn : a + n ≤ s.frameLen) :
    setAddr1 a n (s.withBuf m) = (setAddr1 a n s).withBuf m := by
  unfold setAddr1
  rw [h.bufRange hn]
  rfl

theorem decodeControlAt_withBuf {i : Nat} {p : Proto} (h : AgreesInFrame m s) (hi : i < s.frameLen) :
    decodeControlAt i p (s.withBuf m) = (decodeControlAt i p s).withBuf m := by
  unfold decodeControlAt
  rw [h.byte hi]
  rfl

theorem startStage_blind (h : AgreesInFrame m s) : Blind m startStage s :=
  guard_withBuf Iff.rfl fun hlen => guard_withBuf (by rw [h.byte (by omega)]) fun _ => rfl

theorem lengthStageA_blind (h : AgreesInFrame m s) : Blind m lengthStageA s := by
  have h' : AgreesInFrame m (s.enter .length) := h
  refine guard_withBuf (s := s.enter .length) Iff.rfl fun hlen => ?_
  rw [enter_withBuf, h'.bufLe16 (by omega)]
  exact guard_withBuf (s := { s.enter .length with res := { s.res with fLen := (s.enter .length).bufLe16 1 } }) Iff.rfl
    fun _ => rfl

theorem controlStageA_blind (h : AgreesInFrame m s) : Blind m controlStageA s := by
  have h' : AgreesInFrame m (s.enter .control) := h
  refine guard_withBuf (s := s.enter .control) Iff.rfl fun hlen => ?_
  unfold State.trailerA at hlen
  exact congrArg Stage.cont (decodeControlAt_withBuf h' (by omega))

theorem addressStageA_blind (h : AgreesInFrame m s) : Blind m addressStageA s := by
  have h' : AgreesInFrame m (s.enter .address) := h
  unfold Blind addressStageA
  rw [withBuf_hasAddrA]
  split
  · refine guard_withBuf (s := s.enter .address) Iff.rfl fun hdst => ?_
    unfold State.trailerA at hdst
    rw [enter_withBuf, setAddr0_withBuf h' (by omega)]
    refine guard_withBuf Iff.rfl fun hsrc => ?_
    unfold State.trailerA at hsrc
    exact congrArg Stage.cont (setAddr1_withBuf (s := setAddr0 4 6 (s.enter .address)) h (by omega))
  · rfl

theorem funcStageA_blind (h : AgreesInFrame m s) : Blind m funcStageA s := by
  have h' : AgreesInFrame m (s.enter .payload) := h
  refine guard_withBuf (s := s.enter .payload) Iff.rfl fun hlen => ?_
  unfold State.trailerA at hlen
  rw [enter_withBuf, withBuf_funcAtA, h'.byte (by omega)]
  rfl

theorem seqStageA_blind (h : AgreesInFrame m s) : Blind m seqStageA s := by
  refine guard_withBuf Iff.rfl fun hlen => ?_
  unfold State.trailerA at hlen
  rw [withBuf_funcAtA, h.byte (by omega)]
  rfl

theorem identStageA_blind (h : AgreesInFrame m s) : Blind m identStageA s := by
  refine guard_withBuf Iff.rfl fun hlen => ?_
  unfold State.trailerA at hlen
  rw [withBuf_funcAtA, h.bufRange (by omega)]
  rfl

theorem lengthStageB_blind (h : AgreesInFrame m s) : Blind m lengthStageB s := by
  have h' : AgreesInFrame m (s.enter .length) := h
  refine guard_withBuf (s := s.enter .length) Iff.rfl fun hlen => ?_
  rw [enter_withBuf, h'.bufLe16 (by omega)]
  exact guard_withBuf (s := { s.enter .length with res := { s.res with fLen := (s.enter .length).bufLe16 1 } }) Iff.rfl
    fun _ => rfl

theorem controlStageB_blind (h : AgreesInFrame m s) : Blind m controlStageB s := by
  have h' : AgreesInFrame m (s.enter .control) := h
  refine guard_withBuf (s := s.enter .control) Iff.rfl fun hlen => ?_
  unfold State.trailerB at hlen
  exact congrArg Stage.cont (decodeControlAt_withBuf h' (by omega))

theorem addrHeaderStageB_blind (h : AgreesInFrame m s) : Blind m addrHeaderStageB s := by
  have h' : AgreesInFrame m (s.enter .address) := h
  refine guard_withBuf (s := s.enter .address) Iff.rfl fun hlen => ?_
  unfold State.trailerB at hlen
  rw [enter_withBuf, h'.byte (by omega)]
  rfl

/-- The address length is read from the frame's fifth byte (R223). -/
theorem addrLenB_withBuf (h : AgreesInFrame m s) (hlen : 5 ≤ s.frameLen) : (s.withBuf m).addrLenB = s.addrLenB := by
  unfold State.addrLenB
  rw [h.byte (by omega)]

theorem addressStageB_blind (h : AgreesInFrame m s) (hlen : 5 ≤ s.frameLen) : Blind m addressStageB s := by
  unfold Blind addressStageB
  rw [addrLenB_withBuf h hlen, withBuf_trailerB]
  refine guard_withBuf Iff.rfl fun haddr => ?_
  unfold State.trailerB at haddr
  rw [setAddr0_withBuf h (by omega)]
  rfl

theorem trailStageB_blind (h : AgreesInFrame m s) (hlen : 5 ≤ s.frameLen) : Blind m trailStageB s := by
  unfold Blind trailStageB
  rw [addrLenB_withBuf h hlen, withBuf_trailerB]
  refine guard_withBuf Iff.rfl fun htrail => ?_
  unfold State.trailerB at htrail
  rw [h.byte (by omega)]
  rfl

theorem hcsStageB_blind (h : AgreesInFrame m s) (hlen : 5 ≤ s.frameLen) : Blind m hcsStageB s := by
  have h' : AgreesInFrame m (s.enter .hcs) := h
  unfold Blind hcsStageB
  dsimp only
  rw [enter_withBuf, addrLenB_withBuf h' hlen, withBuf_trailerB]
  refine guard_withBuf Iff.rfl fun hhcs => ?_
  unfold State.trailerB at hhcs
  rw [h'.bufLe16 (by omega), h'.crc16 (by omega)]
  rfl

theorem addressStageC_blind (h : AgreesInFrame m s) : Blind m addressStageC s := by
  have h' : AgreesInFrame m (s.enter .address) := h
  refine guard_withBuf (s := s.enter .address) Iff.rfl fun hlen => ?_
  rw [enter_withBuf, setAddr0_withBuf h' (by omega)]
  rfl

theorem start2StageC_blind (h : AgreesInFrame m s) : Blind m start2StageC s := by
  have h' : AgreesInFrame m (s.enter .start) := h
  refine guard_withBuf (s := s.enter .start) Iff.rfl fun hlen => ?_
  exact guard_withBuf (s := s.enter .start) (by rw [enter_withBuf, h'.byte (by omega)]) fun _ => rfl

theorem controlStageC_blind (h : AgreesInFrame m s) : Blind m controlStageC s := by
  have h' : AgreesInFrame m (s.enter .control) := h
  refine guard_withBuf (s := s.enter .control) Iff.rfl fun hlen => ?_
  rw [enter_withBuf, decodeControlAt_withBuf h' (by omega)]
  have hbyte : ((decodeControlAt 8 .c (s.enter .control)).withBuf m).bufByte 8
      = (decodeControlAt 8 .c (s.enter .control)).bufByte 8 := h'.byte (by omega)
  rw [hbyte]
  rfl

theorem lengthStageC_blind (h : AgreesInFrame m s) : Blind m lengthStageC s := by
  have h' : AgreesInFrame m (s.enter .length) := h
  refine guard_withBuf (s := s.enter .length) Iff.rfl fun hlen => ?_
  rw [enter_withBuf, h'.byte (by omega)]
  exact guard_withBuf
    (s := { s.enter .length with res := { s.res with fLen := ((s.enter .length).bufByte 9).setWidth 16 } }) Iff.rfl
    fun _ => rfl

/-! ### Payload, checksum and end marker -/

/-- Hit or miss, the payload is read up to P_END only (R182, R238). -/
theorem delegate_blind (k : Option Nat) (h : AgreesToEnd m s) : Blind m (delegate k) s := by
  unfold Blind delegate
  rw [show (s.withBuf m).dictLookup = s.dictLookup from rfl]
  cases k.bind s.dictLookup with
  | none => rfl
  | some base => exact interpret_blind base h

theorem toNat_ofNat_le {w n k : Nat} (h : n ≤ k) : (BitVec.ofNat w n).toNat ≤ k := by
  rw [BitVec.toNat_ofNat]
  exact Nat.le_trans (Nat.mod_le _ _) h

/-- A payload inside the frame is read inside the frame. -/
theorem setPayload_agrees {a e : Nat} {d : Byte} (h : AgreesInFrame m s) (he : e ≤ s.frameLen) :
    AgreesToEnd m (setPayload a e d s) :=
  fun i hi => h i (Nat.lt_of_lt_of_le hi (toNat_ofNat_le he))

@[simp] theorem setPayload_withBuf (a e : Nat) (d : Byte) (m : Memory) (s : State) :
    setPayload a e d (s.withBuf m) = (setPayload a e d s).withBuf m := rfl

theorem payloadBytes_withBuf (h : AgreesToEnd m s) : (s.withBuf m).payloadBytes = s.payloadBytes :=
  h.range (Nat.le_refl _)

theorem keyViewB_withBuf (h : AgreesToEnd m s) : (s.withBuf m).keyViewB = s.keyViewB := by
  unfold State.keyViewB
  rw [payloadBytes_withBuf h]
  rfl

theorem keyViewC_withBuf (h : AgreesToEnd m s) : (s.withBuf m).keyViewC = s.keyViewC := by
  unfold State.keyViewC
  rw [payloadBytes_withBuf h]
  rfl

theorem payloadStageA_blind (h : AgreesInFrame m s) : Blind m payloadStageA s := by
  have hend : AgreesToEnd m (setPayload (s.funcAtA + 6) s.trailerA 0#8 s) := setPayload_agrees h (Nat.sub_le _ _)
  unfold Blind payloadStageA
  dsimp only
  rw [withBuf_funcAtA, withBuf_trailerA, setPayload_withBuf]
  exact delegate_blind _ hend

theorem payloadStageB_blind (h : AgreesInFrame m s) (hlen : 5 ≤ s.frameLen) : Blind m payloadStageB s := by
  have h' : AgreesInFrame m (s.enter .payload) := h
  have hend : AgreesToEnd m (setPayload (8 + s.addrLenB) s.trailerB 0#8 (s.enter .payload)) :=
    setPayload_agrees h' (Nat.sub_le _ _)
  unfold Blind payloadStageB
  dsimp only
  rw [addrLenB_withBuf h hlen, withBuf_trailerB, enter_withBuf, setPayload_withBuf, keyViewB_withBuf hend]
  exact delegate_blind _ hend

theorem payloadStageC_blind (h : AgreesInFrame m s) (hlen : s.trailerC ≤ s.frameLen) : Blind m payloadStageC s := by
  have h' : AgreesInFrame m (s.enter .payload) := h
  have hend : AgreesToEnd m (setPayload 10 s.trailerC obfuscation (s.enter .payload)) := setPayload_agrees h' hlen
  unfold Blind payloadStageC
  dsimp only
  rw [withBuf_trailerC, enter_withBuf, setPayload_withBuf, keyViewC_withBuf hend]
  exact delegate_blind _ hend

theorem checksumStageA_blind (h : AgreesInFrame m s) (hlen : 1 ≤ s.frameLen) : Blind m checksumStageA s := by
  have h' : AgreesInFrame m (s.enter .checksum) := h
  unfold Blind checksumStageA
  dsimp only
  have hE : (s.enter .checksum).trailerA < (s.enter .checksum).frameLen := by
    show s.frameLen - 2 < s.frameLen
    omega
  rw [enter_withBuf, withBuf_trailerA, h'.byte hE, h'.checksum (Nat.le_of_lt hE)]
  rfl

theorem checksumStageB_blind (h : AgreesInFrame m s) (hlen : 5 ≤ s.frameLen) : Blind m checksumStageB s := by
  have h' : AgreesInFrame m (s.enter .checksum) := h
  unfold Blind checksumStageB
  dsimp only
  have hE : (s.enter .checksum).trailerB + 2 ≤ (s.enter .checksum).frameLen := by
    show s.frameLen - 3 + 2 ≤ s.frameLen
    omega
  rw [enter_withBuf, withBuf_trailerB, h'.bufLe16 hE, h'.crc16 (Nat.le_of_add_right_le hE)]
  rfl

theorem checksumStageC_blind (h : AgreesInFrame m s) (hlen : s.trailerC < s.frameLen) : Blind m checksumStageC s := by
  have h' : AgreesInFrame m (s.enter .checksum) := h
  unfold Blind checksumStageC
  dsimp only
  have hE : (s.enter .checksum).trailerC < (s.enter .checksum).frameLen := hlen
  rw [enter_withBuf, withBuf_trailerC, h'.byte hE, h'.checksum (Nat.le_of_lt hE)]
  rfl

theorem endStage_blind (h : AgreesInFrame m s) (hlen : 1 ≤ s.frameLen) : Blind m endStage s := by
  have h' : AgreesInFrame m (s.enter .endMark) := h
  have hlast : (s.enter .endMark).frameLen - 1 < (s.enter .endMark).frameLen := Nat.sub_lt hlen Nat.one_pos
  exact guard_withBuf (s := s.enter .endMark) (by rw [enter_withBuf, withBuf_frameLen, h'.byte hlast]) fun _ => rfl

end

/-! ### The PARSE commands -/

theorem Stage.Meets.and {P E Q F : State → Prop} {x : Stage} (hp : x.Meets P E) (hq : x.Meets Q F) :
    x.Meets (fun t => P t ∧ Q t) E := by
  cases x with
  | cont t => exact ⟨hp, hq⟩
  | stop t => exact hp

/-- What the stages after the lookup look at. -/
def State.frameView (s : State) : Memory × OpRegs × Half := (s.buf, s.op, s.res.fLen)

theorem delegate_frameView (k : Option Nat) (s : State) :
    (delegate k s).Meets (fun t => t.frameView = s.frameView) (fun _ => True) := by
  rcases delegate_cases k s with ⟨-, hmiss⟩ | ⟨base, -, hhit⟩
  · rw [hmiss]
    rfl
  · rw [hhit]
    exact (interpret_meets base s).mono (fun t ht => view_eq State.frameView ht.beside) fun _ _ => trivial

section
variable {m : Memory} {s t : State}

theorem agreesInFrame_of_view (h : t.frameView = s.frameView) (ha : AgreesInFrame m s) : AgreesInFrame m t := by
  simp only [State.frameView, Prod.mk.injEq] at h
  obtain ⟨hbuf, hop, -⟩ := h
  intro a hlt
  have hread : t.bufByte a = s.bufByte a := by rw [State.bufByte, State.bufByte, hbuf]
  rw [hread]
  exact ha a (by rwa [State.frameLen, hop] at hlt)

theorem frameLen_of_view (h : t.frameView = s.frameView) : t.frameLen = s.frameLen :=
  congrArg (fun v => v.2.1.bufLen.toNat) h

theorem trailerC_of_view (h : t.frameView = s.frameView) : t.trailerC = s.trailerC :=
  congrArg (fun v => 10 + v.2.2.toNat) h

theorem Staged.agrees (h : Staged (parseBegin s) t) (ha : AgreesInFrame m s) : AgreesInFrame m t :=
  (view_eq (AgreesInFrame m) h.beside).mpr ha

theorem Staged.frameLen (h : Staged (parseBegin s) t) : t.frameLen = s.frameLen :=
  (view_eq State.frameLen h.beside :)

/-- The last stages of a PARSE command: payload, checksum and end marker. -/
theorem parseEnd_blind {payload check : State → Stage} (ha : AgreesInFrame m s) (hlen : 1 ≤ s.frameLen)
    (hview : (payload s).Meets (fun t => t.frameView = s.frameView) (fun _ => True))
    (hpayload : Blind m payload s) (hcheck : ∀ t, t.frameView = s.frameView → Blind m check t)
    (hform : ∀ u, ∃ d c, check u = .cont (setCheck d c (u.enter .checksum))) :
    Blind m (fun s => (payload s).bind fun t => (check t).bind endStage) s := by
  refine Blind.bind hview hpayload fun t ht => ?_
  have hchecked : (check t).Meets (fun u => u.frameView = s.frameView) (fun _ => True) := by
    obtain ⟨d, c, hc⟩ := hform t
    rw [hc]
    exact ht
  refine Blind.bind hchecked (hcheck t ht) fun u hu => ?_
  exact endStage_blind (agreesInFrame_of_view hu ha) (frameLen_of_view hu ▸ hlen)

theorem startStage_frameLen (s : State) : (startStage s).Meets (fun t => 1 ≤ t.frameLen) (fun _ => True) :=
  .guard trivial fun hlen => .guard trivial fun _ => Nat.le_of_not_lt hlen

theorem addrHeaderStageB_frameLen (s : State) :
    (addrHeaderStageB s).Meets (fun t => 5 ≤ t.frameLen) (fun _ => True) :=
  .guard trivial fun hlen => Nat.le_trans (Nat.le_of_not_lt hlen) (Nat.sub_le _ _)

/-- Protocol C's trailer is checksum and end marker, the frame's last two bytes (R237). -/
theorem lengthStageC_trailerC (s : State) :
    (lengthStageC s).Meets (fun t => t.trailerC + 2 = t.frameLen) (fun _ => True) := by
  refine .guard trivial fun _ => .guard trivial fun heq => ?_
  have hlen : s.frameLen = ((s.bufByte 9).setWidth 16).toNat + 12 := Decidable.not_not.mp heq
  show 10 + ((s.bufByte 9).setWidth 16).toNat + 2 = s.frameLen
  omega

/-- The issue check and the START stage with what follows them. -/
theorem parseStart_blind {rest : State → Stage} (ha : AgreesInFrame m s)
    (hrest : ∀ t, Staged (parseBegin s) t → 1 ≤ s.frameLen → Blind m rest t) :
    Blind m (fun s => (bufCheck s).bind fun s => (startStage (parseBegin s)).bind rest) s := by
  refine Blind.bind (bufCheck_meets s) bufCheck_blind ?_
  rintro t ⟨rfl, _⟩
  have hbegin := parseBegin_staged t
  refine Blind.bind (f := fun s => startStage (parseBegin s))
    ((startStage_meets hbegin).and (startStage_frameLen _)) (startStage_blind (hbegin.agrees ha)) fun u ⟨hu, hlen⟩ => ?_
  exact hrest u hu (hu.frameLen ▸ hlen)

theorem parseaBody_blind (ha : AgreesInFrame m s) : Blind m parseaBody s := by
  have hbody : parseaBody = fun s => (bufCheck s).bind fun s => (startStage (parseBegin s)).bind fun s =>
      (lengthStageA s).bind fun s => (controlStageA s).bind fun s => (addressStageA s).bind fun s =>
      (funcStageA s).bind fun s => (seqStageA s).bind fun s => (identStageA s).bind fun s =>
      (payloadStageA s).bind fun s => (checksumStageA s).bind endStage := by
    funext s
    simp only [parseaBody, bind_assoc]
  rw [hbody]
  refine parseStart_blind ha fun t h hlen => ?_
  refine Blind.bind (lengthStageA_meets h) (lengthStageA_blind (h.agrees ha)) fun t h => ?_
  refine Blind.bind (controlStageA_meets h) (controlStageA_blind (h.agrees ha)) fun t h => ?_
  refine Blind.bind (addressStageA_meets h) (addressStageA_blind (h.agrees ha)) fun t h => ?_
  refine Blind.bind (funcStageA_meets h) (funcStageA_blind (h.agrees ha)) fun t h => ?_
  refine Blind.bind (seqStageA_meets h) (seqStageA_blind (h.agrees ha)) fun t h => ?_
  refine Blind.bind (identStageA_meets h) (identStageA_blind (h.agrees ha)) fun t h => ?_
  have hframe : 1 ≤ t.frameLen := h.frameLen.symm ▸ hlen
  refine parseEnd_blind (h.agrees ha) hframe (delegate_frameView _ _) (payloadStageA_blind (h.agrees ha))
    (fun u hu => ?_) fun _ => ⟨_, _, rfl⟩
  exact checksumStageA_blind (agreesInFrame_of_view hu (h.agrees ha)) (frameLen_of_view hu ▸ hframe)

theorem parsebBody_blind (ha : AgreesInFrame m s) : Blind m parsebBody s := by
  have hbody : parsebBody = fun s => (bufCheck s).bind fun s => (startStage (parseBegin s)).bind fun s =>
      (lengthStageB s).bind fun s => (controlStageB s).bind fun s => (addrHeaderStageB s).bind fun s =>
      (addressStageB s).bind fun s => (trailStageB s).bind fun s => (hcsStageB s).bind fun s =>
      (payloadStageB s).bind fun s => (checksumStageB s).bind endStage := by
    funext s
    simp only [parsebBody, bind_assoc]
  rw [hbody]
  refine parseStart_blind ha fun t h _ => ?_
  refine Blind.bind (lengthStageB_meets h) (lengthStageB_blind (h.agrees ha)) fun t h => ?_
  refine Blind.bind (controlStageB_meets h) (controlStageB_blind (h.agrees ha)) fun t h => ?_
  refine Blind.bind ((addrHeaderStageB_meets h).and (addrHeaderStageB_frameLen t))
    (addrHeaderStageB_blind (h.agrees ha)) fun t ⟨h, hheader⟩ => ?_
  have hlen : 5 ≤ s.frameLen := h.frameLen ▸ hheader
  refine Blind.bind (addressStageB_meets h) (addressStageB_blind (h.agrees ha) hheader) fun t h => ?_
  refine Blind.bind (trailStageB_meets h) (trailStageB_blind (h.agrees ha) (h.frameLen.symm ▸ hlen)) fun t h => ?_
  refine Blind.bind (hcsStageB_meets h) (hcsStageB_blind (h.agrees ha) (h.frameLen.symm ▸ hlen)) fun t h => ?_
  have hframe : 5 ≤ t.frameLen := h.frameLen.symm ▸ hlen
  refine parseEnd_blind (h.agrees ha) (by omega) (delegate_frameView _ _) (payloadStageB_blind (h.agrees ha) hframe)
    (fun u hu => ?_) fun _ => ⟨_, _, rfl⟩
  exact checksumStageB_blind (agreesInFrame_of_view hu (h.agrees ha)) (frameLen_of_view hu ▸ hframe)

theorem parsecBody_blind (ha : AgreesInFrame m s) : Blind m parsecBody s := by
  have hbody : parsecBody = fun s => (bufCheck s).bind fun s => (startStage (parseBegin s)).bind fun s =>
      (addressStageC s).bind fun s => (start2StageC s).bind fun s => (controlStageC s).bind fun s =>
      (lengthStageC s).bind fun s => (payloadStageC s).bind fun s => (checksumStageC s).bind endStage := by
    funext s
    simp only [parsecBody, bind_assoc]
  rw [hbody]
  refine parseStart_blind ha fun t h _ => ?_
  refine Blind.bind (addressStageC_meets h) (addressStageC_blind (h.agrees ha)) fun t h => ?_
  refine Blind.bind (start2StageC_meets h) (start2StageC_blind (h.agrees ha)) fun t h => ?_
  refine Blind.bind (controlStageC_meets h) (controlStageC_blind (h.agrees ha)) fun t h => ?_
  refine Blind.bind ((lengthStageC_meets h).and (lengthStageC_trailerC t)) (lengthStageC_blind (h.agrees ha))
    fun t ⟨h, htrailer⟩ => ?_
  refine parseEnd_blind (h.agrees ha) (by omega) (delegate_frameView _ _)
    (payloadStageC_blind (h.agrees ha) (by omega)) (fun u hu => ?_) fun _ => ⟨_, _, rfl⟩
  refine checksumStageC_blind (agreesInFrame_of_view hu (h.agrees ha)) ?_
  rw [trailerC_of_view hu, frameLen_of_view hu]
  omega

/-! ### Every command -/

theorem commandBody_blind {i : Instr} (hi : IsCommand i) (e : Bool) (ha : AgreesInFrame m s) :
    Blind m (commandBody e i) s := by
  cases i with
  | chksum => exact chksumBody_blind ha
  | crc16 => exact crc16Body_blind ha
  | bitc => exact bitcBody_blind
  | interp => exact interpBody_blind ha
  | parsea => exact parseaBody_blind ha
  | parseb => exact parsebBody_blind ha
  | parsec => exact parsecBody_blind ha
  | enca =>
    cases e
    · rfl
    · exact encaBody_blind ha
  | bitx => exact guard_withBuf Iff.rfl fun _ => rfl
  | dctl => exact dctlBody_blind
  | nop | tblrd | reserved0c | reserved10 | reserved20 | reserved40 | reserved80 => rfl
  | _ => exact absurd hi (not_command_of_word rfl)

theorem spoilControl_withBuf : spoilControl (s.withBuf m) = (spoilControl s).withBuf m := rfl
theorem spoilRecord_withBuf : spoilRecord (s.withBuf m) = (spoilRecord s).withBuf m := rfl
theorem spoilPayload_withBuf : spoilPayload (s.withBuf m) = (spoilPayload s).withBuf m := rfl
theorem spoilFrame_withBuf : spoilFrame (s.withBuf m) = (spoilFrame s).withBuf m := rfl
theorem spoilAddress_withBuf : spoilAddress (s.withBuf m) = (spoilAddress s).withBuf m := rfl

theorem spoilParsea_withBuf : spoilParsea (s.withBuf m) = (spoilParsea s).withBuf m := by
  unfold spoilParsea
  rw [spoilControl_withBuf, spoilRecord_withBuf, spoilPayload_withBuf, spoilFrame_withBuf, spoilAddress_withBuf]
  rfl

theorem spoilParseb_withBuf : spoilParseb (s.withBuf m) = (spoilParseb s).withBuf m := by
  unfold spoilParseb
  rw [spoilControl_withBuf, spoilRecord_withBuf, spoilPayload_withBuf, spoilFrame_withBuf, spoilAddress_withBuf]
  rfl

theorem spoilParsec_withBuf : spoilParsec (s.withBuf m) = (spoilParsec s).withBuf m := by
  unfold spoilParsec
  rw [spoilControl_withBuf, spoilRecord_withBuf, spoilPayload_withBuf, spoilFrame_withBuf, spoilAddress_withBuf]
  rfl

theorem commandSpoil_withBuf (e : Bool) (i : Instr) :
    commandSpoil e i (s.withBuf m) = (commandSpoil e i s).withBuf m := by
  cases i with
  | enca => cases e <;> rfl
  | parsea => exact spoilParsea_withBuf
  | parseb => exact spoilParseb_withBuf
  | parsec => exact spoilParsec_withBuf
  | _ => rfl

theorem issue_withBuf {spoil : State → State} {body : State → Stage} (hbody : Blind m body (issueBegin s))
    (hspoil : ∀ t, spoil (t.withBuf m) = (spoil t).withBuf m) :
    issue spoil body (s.withBuf m) = (issue spoil body s).withBuf m := by
  have hrun : body (issueBegin (s.withBuf m)) = (body (issueBegin s)).withBuf m := hbody
  unfold issue
  rw [hrun]
  cases body (issueBegin s) with
  | cont t => rfl
  | stop t => exact congrArg issueEnd (hspoil t)

end
end Sys2Proof.Machine

open Sys2Proof Sys2Proof.Machine Sys2Proof.Spec

/-- Settles O22: every command's pseudocode is blind to BUF past BUF_LEN, and so is what its errors leave. -/
theorem bytesPastBufLenNeverMatter : Obligations.BytesPastBufLenNeverMatter := by
  intro i s t m hi ha h
  obtain rfl := Host.Outcome.next.inj ((exec_command hi s).symm.trans h)
  refine (exec_command hi (s.withBuf m)).trans (congrArg Host.Outcome.next ?_)
  exact issue_withBuf (commandBody_blind hi _ ha) fun t => commandSpoil_withBuf _ i
end

section
/-! SUPPORT. The model's byte arithmetic is the rules': numbers, sums, bit fields, control bytes and lookups. -/

namespace Sys2Proof.Machine

open Sys2Proof.Spec

/-! ### Ranges of bytes and their numbers -/

theorem bufRange_eq_wire (s : State) (a n : Nat) : s.bufRange a n = wire s a n :=
  List.ext_getElem (by simp [wire]) fun i h _ => by simp [wire, bufRange_getElem s a n i h]

theorem payRange_eq_payBytes (s : State) (a n : Nat) : s.payRange a n = payBytes s a n := by
  rw [payRange_eq, bufRange_eq_wire]
  simp [wire, payBytes, payByte, Function.comp_def]

/-- `le` is the sum of the rule, byte by byte (R10). -/
theorem le_map_range (f : Nat → Byte) (n : Nat) :
    le ((List.range n).map f) = ((List.range n).map fun i => (f i).toNat * 256 ^ i).sum := by
  induction n generalizing f with
  | zero => rfl
  | succ n ih =>
    have hshift : ∀ i, (f (i + 1)).toNat * 256 ^ (i + 1) = 256 * ((f (i + 1)).toNat * 256 ^ i) := fun i => by
      rw [Nat.pow_succ]
      ac_rfl
    simp only [List.range_succ_eq_map, List.map_cons, List.map_map, Function.comp_def, Nat.succ_eq_add_one, le, ih,
      List.sum_cons, Nat.pow_zero, Nat.mul_one, hshift, List.sum_map_mul_left]

theorem le_bufRange (s : State) (a n : Nat) : le (s.bufRange a n) = leNum s a n := by
  rw [bufRange_eq_wire]
  exact le_map_range ..

theorem le_payRange (s : State) (a n : Nat) : le (s.payRange a n) = payNum s a n := by
  rw [payRange_eq_payBytes]
  exact le_map_range ..

theorem leNum_lt (s : State) (a n : Nat) : leNum s a n < 256 ^ n := by
  have h := le_lt (s.bufRange a n)
  rwa [le_bufRange, bufRange_length] at h

/-- The checksum engine adds modulo 256 (R111). -/
theorem sum8_toNat (bs : List Byte) : (sum8 bs).toNat = (bs.map BitVec.toNat).sum % 256 := by
  induction bs with
  | nil => rfl
  | cons b bs ih =>
    have hcons : sum8 (b :: bs) = b + sum8 bs := by
      simp only [sum8, sumFrom, BitVec.zero_add]
      exact sumFrom_eq_add b bs
    rw [hcons, BitVec.toNat_add, ih, List.map_cons, List.sum_cons, Nat.add_mod_mod]

theorem checksum_toNat (s : State) (a e : Nat) : (s.checksum a e).toNat = byteSum s a (e - a) % 256 := by
  rw [State.checksum, sum8_toNat, bufRange_eq_wire]
  simp only [wire, byteSum, List.map_map, Function.comp_def]

/-! ### Bit fields and control bytes -/

/-- Shift and mask give the bits of the rule (R140). -/
theorem extract_eq_bitField (b : Byte) (s e : BitVec 3) : extract b s e = bitField b s e := by
  have he := e.isLt
  have hw : e.toNat - s.toNat + 1 ≤ 8 := by omega
  have hmask : ((1#8 <<< (e.toNat - s.toNat + 1)) - 1#8).toNat = 2 ^ (e.toNat - s.toNat + 1) - 1 := by
    generalize e.toNat - s.toNat + 1 = w at hw
    interval_cases w <;> rfl
  have hle : b.toNat / 2 ^ s.toNat % 2 ^ (e.toNat - s.toNat + 1) < 2 ^ 8 :=
    Nat.lt_of_le_of_lt (Nat.mod_le _ _) (Nat.lt_of_le_of_lt (Nat.div_le_self _ _) b.isLt)
  apply BitVec.eq_of_toNat_eq
  rw [extract, extractWidth, BitVec.toNat_and, hmask, BitVec.toNat_ushiftRight, Nat.shiftRight_eq_div_pow,
    Nat.and_two_pow_sub_one_eq_mod, bitField, BitVec.toNat_ofNat, Nat.mod_eq_of_lt hle]

theorem controlField_eq_ctlField (b : Byte) (r : Option BitRange) : controlField b r = ctlField b r := by
  cases r with
  | none => rfl
  | some r => exact extract_eq_bitField ..

theorem controlMask_eq_ctlMask (l : Layout) : controlMask l = ctlMask l := by
  unfold controlMask ctlMask
  generalize l.dir.isSome = dir, l.prm.isSome = prm, l.addr.isSome = addr, l.ver.isSome = ver, l.func.isSome = func
  revert dir prm addr ver func
  decide

/-- Decoding a control byte writes F_CTRL and CI_* and nothing else (R149). -/
theorem decodeControl_eq (b : Byte) (l : Layout) (s : State) :
    decodeControl b l s = { s with res := controlRes l b s.res } := by
  simp only [decodeControl, controlRes, controlField_eq_ctlField, controlMask_eq_ctlMask]

/-! ### Lookups -/

theorem dictLookup_of_misses {s : State} {k : Nat} (h : Misses s k) : s.cfg.val.dict.lookup k = none :=
  List.lookup_eq_none_iff.mpr fun p hp => by simpa using (h p hp).symm

/-- `delegate` looks the key up in the configuration, which no stage changes (R238). -/
theorem delegate_eq_delegated {s p : State} (hcfg : p.cfg = s.cfg) (k : Option Nat) :
    delegate k p = delegated s k p := by
  have hdict : p.dictLookup = fun key => s.cfg.val.dict.lookup key := by
    funext key
    rw [State.dictLookup, hcfg, dictFind_eq_lookup]
  unfold delegate delegated found
  rw [hdict]
  cases k.bind fun key => s.cfg.val.dict.lookup key <;> rfl

end Sys2Proof.Machine
end

section
/-! SUPPORT. What a descriptor of one word does to the walk's pointer, and the BIN word. -/

namespace Sys2Proof.Machine

open Sys2Proof.Spec

/-! ### One descriptor of the walk -/

theorem dpIndex_lt {s : State} (h : s.dpPast = false) : s.dpIndex < 65536 := by
  rw [State.dpIndex, h]
  exact s.dp.isLt

/-- `advance` moves the pointer by the words occupied, unless they end past the largest DROM (R35, R162). -/
theorem advance_advanced {words : Nat} (bytes : Nat) {s : State} (h : s.dpIndex + words ≤ 65536) :
    Advanced s (advance bytes words s) words := by
  have hindex : (advance bytes words s).dpIndex = min (s.dpIndex + words) 65536 := dpIndex_setDp ..
  exact ⟨hindex.trans (Nat.min_eq_left h), fun hlt => by rw [advance_of_lt s hlt]⟩

/-- `advance` writes CUR, ISM, DP and the model's own fields (R162). -/
theorem advance_eq (bytes words : Nat) (s : State) :
    advance bytes words s =
      { s with
        cur := BitVec.ofNat 16 (s.cur.toNat + bytes)
        ism := .fetch
        dp := (advance bytes words s).dp
        dpPast := (advance bytes words s).dpPast
        draws := (advance bytes words s).draws } := by
  obtain ⟨d, p, k, hset⟩ := setDp_eq (s.dpIndex + words) s
  have hcur : s.cur + BitVec.ofNat 16 bytes = BitVec.ofNat 16 (s.cur.toNat + bytes) := by
    rw [BitVec.ofNat_add, BitVec.ofNat_toNat, BitVec.setWidth_eq]
  unfold advance
  rw [hset, hcur]

/-- The length latch takes the value exactly when L = 1 (R168, R169). -/
theorem latchLength_eq (h : Head) (v : Nat) (s : State) :
    latchLength h v s =
      { s with
        lenVal := if h.l = 1 then v else s.lenVal
        lenVld := if h.l = 1 then true else s.lenVld } := by
  unfold latchLength
  split
  · next hl => simp [hl]
  · next hl => simp [hl]

theorem need_of_room {name : Half} {n : Nat} {s : State} (h : s.cur.toNat + n ≤ s.res.pEnd.toNat) :
    need name n s = .cont s :=
  if_neg (Nat.not_lt.mpr h)

/-- A well-formed BIN word with its bytes left is decoded (R164, R168). -/
theorem binBody_of_room {h : Head} {s : State} (hrsv : h.rsv = 0#3)
    (hroom : s.cur.toNat + h.size.toNat ≤ s.res.pEnd.toNat) :
    binBody h s = .cont (advance h.size.toNat 1 (latchLength h (payNum s s.cur.toNat h.size.toNat)
      (emit h.name (.bin h.size (payNum s s.cur.toNat h.size.toNat)) s))) := by
  unfold binBody
  rw [if_neg (not_not_intro hrsv), need_of_room hroom, bind_cont, le_payRange]

end Sys2Proof.Machine

open Sys2Proof Sys2Proof.Machine Sys2Proof.Spec

/-- Settles O42: the word is decoded, and what it appends, latches and advances are the fields of the statement. -/
theorem binField : Obligations.BinField := by
  intro s h hrsv hpast hroom
  have hexec := exec_descriptor (i := .bin h) (not_command_of_word rfl) s
  rw [show descriptor (.bin h) s = binBody h s from rfl, binBody_of_room hrsv hroom, latchLength_eq] at hexec
  exact ⟨_, hexec, advance_advanced _ (dpIndex_lt hpast), advance_eq ..⟩
end

section
/-! SUPPORT. PARSEA from its issue to its end on a frame whose checks pass, stage by stage. -/

namespace Sys2Proof.Machine

open Sys2Proof.Spec

/-! ### Checks that pass -/

/-- A check that passes leaves the rest. -/
theorem guard_passes {c : Prop} [Decidable c] {x y z : Stage} (hc : ¬ c) (hy : y = z) :
    (if c then x else y) = z :=
  (if_neg hc).trans hy

/-- A sequence runs on from where its first part goes on. -/
theorem bind_of_cont {x y : Stage} {f : State → Stage} {t : State} (hx : x = .cont t) (hy : f t = y) :
    x.bind f = y := by
  rw [hx, bind_cont, hy]

section
variable {s : State}

theorem bufCheck_of_fits (h : s.frameLen ≤ s.cfg.val.bufCap) : bufCheck s = .cont s :=
  guard_passes (Nat.not_lt.mpr h) rfl

theorem startStage_of_marker (hlen : 1 ≤ s.frameLen) (hmark : s.bufByte 0 = startMarker) : startStage s = .cont s :=
  guard_passes (Nat.not_lt.mpr hlen) (guard_passes (not_not_intro hmark) rfl)

/-! ### Protocol A's stages before the payload (R206 to R213) -/

theorem lengthStageA_of_match (hlen : 3 ≤ s.frameLen) (hmatch : leNum s 1 2 = s.frameLen) :
    lengthStageA s = .cont { s with fsm := .length, res := { s.res with fLen := s.op.bufLen } } := by
  have hfield : s.bufLe16 1 = s.op.bufLen := by
    rw [State.bufLe16, le_bufRange, hmatch, State.frameLen, BitVec.ofNat_toNat, BitVec.setWidth_eq]
  have hsame : ¬ (s.bufLe16 1).toNat ≠ s.frameLen := not_not_intro (by rw [hfield, State.frameLen])
  refine guard_passes (Nat.not_lt.mpr hlen) (guard_passes hsame ?_)
  exact congrArg (fun n => Stage.cont { s with fsm := .length, res := { s.res with fLen := n } }) hfield

theorem controlStageA_of_room (hlen : 6 ≤ s.frameLen) :
    controlStageA s = .cont { s with fsm := .control, res := controlRes s.cfg.val.layoutA (s.bufByte 3) s.res } :=
  have hroom : 4 ≤ s.trailerA := Nat.le_sub_of_add_le hlen
  guard_passes (Nat.not_lt.mpr hroom) (congrArg Stage.cont (decodeControl_eq ..))

theorem addressStageA_of_absent (h : s.hasAddrA = false) : addressStageA s = .cont s :=
  if_neg (ne_true_of_eq_false h)

/-- Source and destination in the address arrays, each reversed (R208). -/
def addressedA (s : State) : State :=
  { s with
    fsm := .address
    addr0 := Memory.ofBytes 0 (wire s 4 6).reverse
    addr1 := Memory.ofBytes 0 (wire s 10 6).reverse
    res := { s.res with addr0Len := 6#5, addr1Len := 6#5 } }

theorem setAddr_eq_addressedA (s : State) : setAddr1 10 6 (setAddr0 4 6 (s.enter .address)) = addressedA s := by
  unfold setAddr1 setAddr0 addressedA
  rw [bufRange_eq_wire, bufRange_eq_wire]
  rfl

theorem addressStageA_of_present (h : s.hasAddrA = true) (hlen : 18 ≤ s.frameLen) :
    addressStageA s = .cont (addressedA s) := by
  rw [← setAddr_eq_addressedA]
  have hroom : 16 ≤ s.trailerA := Nat.le_sub_of_add_le hlen
  refine (if_pos h).trans (guard_passes ?_ (guard_passes (Nat.not_lt.mpr hroom) rfl))
  exact Nat.not_lt.mpr (Nat.le_trans (by decide) hroom)

/-- The function code, the sequence byte and the identifier read from index o on. -/
def fieldsA (o : Nat) (s : State) : State :=
  { s with
    fsm := .payload
    res := { s.res with
      fFunc := s.bufByte o
      fSeq := s.bufByte (o + 1)
      fIdent := BitVec.ofNat 32 (leNum s (o + 2) 4) } }

theorem fieldStagesA_of_room {x : Stage} {o : Nat} (hx : x = .cont s) (ho : s.funcAtA = o)
    (hlen : o + 8 ≤ s.frameLen) :
    ((x.bind funcStageA).bind seqStageA).bind identStageA = .cont (fieldsA o s) := by
  subst ho
  have hroom : ∀ k, k ≤ 6 → ¬ s.trailerA < s.funcAtA + k := fun k hk => by
    unfold State.trailerA
    omega
  have hfunc := bind_of_cont hx (f := funcStageA) (guard_passes (hroom 1 (by decide)) rfl)
  have hseq := bind_of_cont hfunc (f := seqStageA) (guard_passes (hroom 2 (by decide)) rfl)
  refine bind_of_cont hseq (guard_passes (hroom 6 (by decide)) ?_)
  rw [le_bufRange]
  rfl

/-- The key is the function code before the identifier (R100). -/
theorem keyA_fieldsA (o : Nat) (s : State) : (fieldsA o s).keyA = keyAt s o := by
  have hlt : leNum s (o + 2) 4 < 2 ^ 32 := leNum_lt s (o + 2) 4
  show (s.bufByte o ++ BitVec.ofNat 32 (leNum s (o + 2) 4)).toNat = _
  rw [BitVec.toNat_append, BitVec.toNat_ofNat, Nat.mod_eq_of_lt hlt, ← Nat.shiftLeft_add_eq_or_of_lt hlt,
    Nat.shiftLeft_eq]

/-- The payload is delegated under the frame's key, wherever the fields stand (R214, R238). -/
theorem payloadStageA_fieldsA {u : State} {o : Nat} (ho : u.funcAtA = o) (hcfg : u.cfg = s.cfg) :
    payloadStageA (fieldsA o u)
      = delegated s (some (keyAt u o)) (setPayload (o + 6) u.trailerA 0#8 (fieldsA o u)) := by
  subst ho
  rw [← keyA_fieldsA]
  exact delegate_eq_delegated (p := setPayload (u.funcAtA + 6) u.trailerA 0#8 (fieldsA u.funcAtA u)) hcfg _

/-! ### From the issue to the lookup (R205) -/

theorem ite_some_eq_none {α : Type} {c : Prop} [Decidable c] {a : α} {x : Option α} :
    (if c then some a else x) = none ↔ ¬ c ∧ x = none := by
  split <;> simp [*]

theorem funcAt_cases (s : State) : (HasAddr s ∧ funcAt s = 16) ∨ (¬ HasAddr s ∧ funcAt s = 4) := by
  by_cases haddr : HasAddr s
  · exact .inl ⟨haddr, if_pos haddr⟩
  · exact .inr ⟨haddr, if_neg haddr⟩

/-- The stages before the lookup pass exactly when marker and length are good and the fixed fields fit. -/
theorem headFaultA_eq_none :
    headFaultA s = none ↔ s.bufByte 0 = 0x68#8 ∧ leNum s 1 2 = frameN s ∧ funcAt s + 8 ≤ frameN s := by
  simp only [headFaultA, ite_some_eq_none, Decidable.not_not, and_true]
  constructor
  · rintro ⟨_, hmark, _, hmatch, _, _, _, _, _, hroom⟩
    rcases funcAt_cases s with ⟨_, ho⟩ | ⟨_, ho⟩
    all_goals exact ⟨hmark, hmatch, by omega⟩
  · rintro ⟨hmark, hmatch, hroom⟩
    rcases funcAt_cases s with ⟨_, ho⟩ | ⟨haddr, ho⟩
    · refine ⟨?_, hmark, ?_, hmatch, ?_, fun h => ?_, fun h => ?_, ?_, ?_, ?_⟩
      all_goals omega
    · refine ⟨?_, hmark, ?_, hmatch, ?_, fun h => haddr h.1, fun h => haddr h.1, ?_, ?_, ?_⟩
      all_goals omega

/-- A Protocol-A frame whose control byte is decoded (R201 to R207, R281). -/
def controlledA (s : State) : State :=
  let t := parseBegin (issueBegin s)
  { t with
    fsm := .control
    res := controlRes s.cfg.val.layoutA (s.bufByte 3) { t.res with fLen := s.op.bufLen } }

theorem controlledA_hasAddrA (s : State) : (controlledA s).hasAddrA = decide (HasAddr s) := rfl

theorem parseaHead_eq (hcap : frameN s ≤ s.cfg.val.bufCap) (hlen : 6 ≤ frameN s)
    (hmark : s.bufByte 0 = 0x68#8) (hmatch : leNum s 1 2 = frameN s) :
    (((bufCheck (issueBegin s)).bind fun s => startStage (parseBegin s)).bind lengthStageA).bind controlStageA
      = .cont (controlledA s) := by
  have hstart : startStage (parseBegin (issueBegin s)) = .cont (parseBegin (issueBegin s)) :=
    startStage_of_marker (Nat.le_trans (by decide) hlen) hmark
  have hlength := lengthStageA_of_match (s := parseBegin (issueBegin s)) (Nat.le_trans (by decide) hlen) hmatch
  exact bind_of_cont (bind_of_cont (bind_of_cont (bufCheck_of_fits hcap) hstart) hlength)
    (controlStageA_of_room hlen)

theorem payloadStateA_present (haddr : HasAddr s) :
    setPayload 22 (frameN s - 2) 0#8 (fieldsA 16 (addressedA (controlledA s)))
      = payloadStateA s := by
  simp only [payloadStateA, payloadState, if_pos haddr]
  rfl

theorem payloadStateA_absent (haddr : ¬ HasAddr s) :
    setPayload 10 (frameN s - 2) 0#8 (fieldsA 4 (controlledA s)) = payloadStateA s := by
  simp only [payloadStateA, payloadState, if_neg haddr]
  rfl

/-- On a frame that reaches the lookup, PARSEA delegates the payload from the state the earlier stages leave, and then
checks the trailer (R205). -/
theorem parseaBody_eq_delegated (h : BodyA s) :
    parseaBody (issueBegin s)
      = (delegated s (some (keyAt s (funcAt s))) (payloadStateA s)).bind fun u => (checksumStageA u).bind endStage := by
  obtain ⟨hcap, hhead⟩ := h
  obtain ⟨hmark, hmatch, hroom⟩ := headFaultA_eq_none.mp hhead
  have hstart := parseaHead_eq hcap (by omega) hmark hmatch
  refine congrArg (fun x : Stage => x.bind fun u => (checksumStageA u).bind endStage) ?_
  rcases funcAt_cases s with ⟨haddr, ho⟩ | ⟨haddr, ho⟩
  · rw [ho] at hroom ⊢
    have hhas : (controlledA s).hasAddrA = true := by rw [controlledA_hasAddrA, decide_eq_true haddr]
    have haddress := bind_of_cont hstart (addressStageA_of_present hhas (show 18 ≤ frameN s by omega))
    have hfunc : State.funcAtA (addressedA (controlledA s)) = 16 := if_pos hhas
    rw [← payloadStateA_present haddr]
    exact bind_of_cont (fieldStagesA_of_room haddress hfunc hroom) (payloadStageA_fieldsA hfunc rfl)
  · rw [ho] at hroom ⊢
    have hhas : (controlledA s).hasAddrA = false := by rw [controlledA_hasAddrA, decide_eq_false haddr]
    have haddress := bind_of_cont hstart (addressStageA_of_absent hhas)
    have hfunc : (controlledA s).funcAtA = 4 := if_neg (ne_true_of_eq_false hhas)
    rw [← payloadStateA_absent haddr]
    exact bind_of_cont (fieldStagesA_of_room haddress hfunc hroom) (payloadStageA_fieldsA hfunc rfl)
end

/-! ### From the lookup to the end (R214, R215, R238, R242) -/

theorem delegated_of_misses {s p : State} {k : Nat} (h : Misses s k) :
    delegated s (some k) p = .cont (lookupMiss p) := by
  unfold delegated
  rw [show found s (some k) = none from dictLookup_of_misses h]
  rfl

/-- The declared and the computed checksum of the frame in the check registers (R215). -/
def checkedA (s : State) : State :=
  setCheck ((s.bufByte (frameN s - 2)).setWidth 16) (BitVec.ofNat 16 (byteSum s 3 (frameN s - 5) % 256)) s

theorem checksumStageA_eq (s : State) : checksumStageA s = .cont (checkedA (s.enter .checksum)) := by
  have hsum : ∀ u : State,
      (u.checksum 3 u.trailerA).setWidth 16 = BitVec.ofNat 16 (byteSum u 3 (frameN u - 5) % 256) := fun u => by
    rw [← BitVec.ofNat_toNat, checksum_toNat, State.trailerA, State.frameLen, Nat.sub_sub]
  exact congrArg (fun c => Stage.cont (setCheck _ c (s.enter .checksum))) (hsum (s.enter .checksum))

/-- PARSEA whose payload is delegated without an error ends in DONE when the end marker is good (R205, R242). -/
theorem exec_parsea_of_delegated {s u : State} (hbody : BodyA s)
    (hu : delegated s (some (keyAt s (funcAt s))) (payloadStateA s) = .cont u) (hend : EndMark u) :
    exec .parsea s = .next (issueEnd { checkedA u with fsm := .done }) := by
  have htail : (checksumStageA u).bind endStage = .cont { checkedA u with fsm := .done } := by
    rw [checksumStageA_eq, bind_cont]
    rcases endStage_cases (checkedA (u.enter .checksum)) with ⟨-, hdone⟩ | ⟨hbad, -⟩
    · exact hdone
    · exact absurd hend hbad
  have hrun := (parseaBody_eq_delegated hbody).trans (bind_of_cont hu htail)
  exact congrArg (fun x => Host.Outcome.next (settle spoilParsea x)) hrun

/-- After a miss the payload stands as a range behind the fields of the frame (R238). -/
theorem missedEnd_eq (p : State) :
    issueEnd { checkedA (lookupMiss p) with fsm := .done } =
      { p with
        status := ⟨false, true, p.status.err, decide ((p.bufByte (frameN p - 2)).setWidth 16
          = BitVec.ofNat 16 (byteSum p 3 (frameN p - 5) % 256)), p.status.hkValid, true, p.status.recValid⟩
        recs := []
        fsm := .done
        cur := p.res.pStart
        res := { p.res with
          rem := p.res.pEnd - p.res.pStart
          recCnt := 0#16
          ckDecl := (p.bufByte (frameN p - 2)).setWidth 16
          ckComp := BitVec.ofNat 16 (byteSum p 3 (frameN p - 5) % 256) } } := rfl

theorem setWidth_eq_ofNat_iff {b : Byte} {n : Nat} (h : n < 65536) :
    b.setWidth 16 = BitVec.ofNat 16 n ↔ b.toNat = n := by
  rw [← BitVec.toNat_inj, BitVec.toNat_setWidth, BitVec.toNat_ofNat]
  have := b.isLt
  omega

/-- Bytes stored in reverse read in reverse (R67). -/
theorem get?_ofBytes_reverse (s : State) {a n i : Nat} (h : i < n) :
    Memory.get? (Memory.ofBytes 0 (wire s a n).reverse) i = some (s.bufByte (a + (n - 1 - i))) := by
  rw [Memory.get?_ofBytes, if_pos (Nat.zero_le i), Nat.sub_zero, List.getElem?_reverse (by simpa [wire] using h)]
  simp only [wire, List.length_map, List.length_range, List.getElem?_map]
  rw [List.getElem?_range (by omega)]
  rfl

theorem addr0Byte_of_reversed {s t : State} {a n i : Nat} (h : t.addr0 = Memory.ofBytes 0 (wire s a n).reverse)
    (hi : i < n) : t.addr0Byte i = s.bufByte (a + (n - 1 - i)) := by
  rw [State.addr0Byte, h, get?_ofBytes_reverse s hi, Option.getD_some]

theorem addr1Byte_of_reversed {s t : State} {a n i : Nat} (h : t.addr1 = Memory.ofBytes 0 (wire s a n).reverse)
    (hi : i < n) : t.addr1Byte i = s.bufByte (a + (n - 1 - i)) := by
  rw [State.addr1Byte, h, get?_ofBytes_reverse s hi, Option.getD_some]

end Sys2Proof.Machine

open Sys2Proof Sys2Proof.Machine Sys2Proof.Spec

/-- Settles O53: the frame reaches the lookup with its addresses stored, misses, and ends in DONE. -/
theorem parseaWithAddress : Obligations.ParseaWithAddress := by
  intro s hframe hmiss
  obtain ⟨hcap, hlen, hmark, hmatch, haddr, hend⟩ := hframe
  have ho : funcAt s = 16 := if_pos haddr
  have hbody : BodyA s := ⟨hcap, headFaultA_eq_none.mpr ⟨hmark, hmatch, by omega⟩⟩
  have hdeleg := delegated_of_misses (p := payloadStateA s) (ho ▸ hmiss : Misses s (keyAt s (funcAt s)))
  have hexec := exec_parsea_of_delegated hbody hdeleg hend
  rw [missedEnd_eq] at hexec
  have hsource : (payloadStateA s).addr0 = Memory.ofBytes 0 (wire s 4 6).reverse := if_pos haddr
  have hdest : (payloadStateA s).addr1 = Memory.ofBytes 0 (wire s 10 6).reverse := if_pos haddr
  refine ⟨_, hexec, fun i hi => ⟨?_, ?_⟩, ?_⟩
  · exact (addr0Byte_of_reversed (by exact hsource) hi).trans (congrArg s.bufByte (by omega))
  · exact (addr1Byte_of_reversed (by exact hdest) hi).trans (congrArg s.bufByte (by omega))
  · have hck : decide ((s.bufByte (frameN s - 2)).setWidth 16 = BitVec.ofNat 16 (byteSum s 3 (frameN s - 5) % 256))
        = decide ((s.bufByte (frameN s - 2)).toNat = byteSum s 3 (frameN s - 5) % 256) :=
      decide_eq_decide.mpr (setWidth_eq_ofNat_iff (by omega))
    have hrem : BitVec.ofNat 16 (frameN s - 2) - 22#16 = BitVec.ofNat 16 (frameN s - 24) := by
      rw [BitVec.ofNat_sub_ofNat_of_le _ _ (by decide) (by omega), Nat.sub_sub]
    rw [← hck, ← hrem]
    simp only [payloadStateA, payloadState, if_pos haddr]
    rfl
end

section
/-! SUPPORT. The two instruction formats field by field: what unpacking a packed word gives, what packing an unpacked
word gives, and the decoder branch by branch. -/

namespace Sys2Proof

/-! ### Packing and unpacking (R85, R90) -/

/-- Concatenation as arithmetic: the left part stands above the right one. -/
theorem toNat_append_eq_add {m n : Nat} (x : BitVec m) (y : BitVec n) : (x ++ y).toNat = x.toNat * 2 ^ n + y.toNat := by
  rw [BitVec.toNat_append, ← Nat.shiftLeft_add_eq_or_of_lt y.isLt, Nat.shiftLeft_eq]

/-- A field as arithmetic. -/
theorem toNat_extract_eq_div_mod {m : Nat} (lo n : Nat) (x : BitVec m) :
    (x.extractLsb' lo n).toNat = x.toNat / 2 ^ lo % 2 ^ n := by
  rw [BitVec.extractLsb'_toNat, Nat.shiftRight_eq_div_pow]

theorem packHead_toNat (t : BitVec 4) (h : Head) :
    (packHead t h).toNat
      = t.toNat * 2 ^ 28 + h.l.toNat * 2 ^ 27 + h.rsv.toNat * 2 ^ 24 + h.size.toNat * 2 ^ 16 + h.name.toNat := by
  simp only [packHead, toNat_append_eq_add]
  omega

theorem packRange_toNat (r : RangeFields) :
    (packRange r).toNat
      = 7 * 2 ^ 28 + r.rsvHi.toNat * 2 ^ 23 + r.stop.toNat * 2 ^ 20 + r.rsvLo.toNat * 2 ^ 19 + r.start.toNat * 2 ^ 16
        + r.sub.toNat := by
  simp only [packRange, toNat_append_eq_add, BitVec.toNat_ofNat]
  omega

theorem wordTag_packHead (t : BitVec 4) (h : Head) : wordTag (packHead t h) = t := Laws.tag_packHead t h

theorem wordTag_packRange (r : RangeFields) : wordTag (packRange r) = 7#4 := Laws.tag_packRange r

/-- Each field of a head word is unpacked where it was packed (R85). -/
theorem wordHead_packHead (t : BitVec 4) (h : Head) : wordHead (packHead t h) = h := by
  have hl := h.l.isLt
  have hrsv := h.rsv.isLt
  have hsize := h.size.isLt
  have hname := h.name.isLt
  have hpack := packHead_toNat t h
  unfold wordHead wordName
  congr 1
  all_goals
    apply BitVec.eq_of_toNat_eq
    rw [toNat_extract_eq_div_mod, hpack]
    omega

/-- The same for a range word (R90). -/
theorem wordRange_packRange (r : RangeFields) : wordRange (packRange r) = r := by
  have hhi := r.rsvHi.isLt
  have hstop := r.stop.isLt
  have hlo := r.rsvLo.isLt
  have hstart := r.start.isLt
  have hsub := r.sub.isLt
  have hpack := packRange_toNat r
  unfold wordRange wordName
  congr 1
  all_goals
    apply BitVec.eq_of_toNat_eq
    rw [toNat_extract_eq_div_mod, hpack]
    omega

/-- The fields of a head word are all of its bits. -/
theorem packHead_wordHead (w : Word) : packHead (wordTag w) (wordHead w) = w := by
  have hw := w.isLt
  apply BitVec.eq_of_toNat_eq
  simp only [packHead_toNat, wordTag, wordHead, wordName, toNat_extract_eq_div_mod]
  omega

theorem packRange_wordRange {w : Word} (h : wordTag w = 7#4) : packRange (wordRange w) = w := by
  have hw := w.isLt
  have htag := congrArg BitVec.toNat h
  apply BitVec.eq_of_toNat_eq
  simp only [wordTag, toNat_extract_eq_div_mod, BitVec.toNat_ofNat] at htag
  simp only [packRange_toNat, wordRange, wordName, toNat_extract_eq_div_mod]
  omega

/-- The high bit of an unrecognised tag is set, and its low three bits are the word's bits 30:28. -/
theorem wordTag_of_unknown {w : Word} (h : 8 ≤ (wordTag w).toNat) : 1#1 ++ w.extractLsb' 28 3 = wordTag w := by
  have hw := w.isLt
  apply BitVec.eq_of_toNat_eq
  simp only [wordTag, toNat_extract_eq_div_mod] at h ⊢
  simp only [toNat_append_eq_add, toNat_extract_eq_div_mod, BitVec.toNat_ofNat]
  omega

/-- A number with the given high part is that part above its own low bits. -/
theorem toNat_append_extract_low {k m n : Nat} {p : BitVec k} {b : BitVec m} (h : b.toNat / 2 ^ n = p.toNat) :
    (p ++ b.extractLsb' 0 n).toNat = b.toNat := by
  rw [toNat_append_eq_add, toNat_extract_eq_div_mod, ← h, Nat.pow_zero, Nat.div_one, Nat.mul_comm]
  exact Nat.div_add_mod ..

/-! ### Decoding, then encoding -/

/-- A reserved opcode is the fixed high bits of its row above the low bits that the row leaves free (R83). -/
theorem encode_decodeCmd (b : Byte) : encode (decodeCmd b) = .cmd b := by
  have hb := b.isLt
  have row : ∀ {i : Instr} {e : Byte}, encode i = .cmd e → e.toNat = b.toNat → encode i = .cmd b := fun hi he =>
    hi.trans (congrArg Encoded.cmd (BitVec.eq_of_toNat_eq he))
  unfold decodeCmd
  iterate 12 refine iteInduction (motive := (encode · = .cmd b)) (fun h => congrArg Encoded.cmd h.symm) fun _ => ?_
  refine iteInduction (c := b.toNat < 0x10) (motive := (encode · = .cmd b))
    (fun _ => row rfl (toNat_append_extract_low (show b.toNat / 4 = 3 by bv_omega))) fun _ => ?_
  refine iteInduction (c := b.toNat < 0x20) (motive := (encode · = .cmd b))
    (fun _ => row rfl (toNat_append_extract_low (show b.toNat / 16 = 1 by omega))) fun _ => ?_
  refine iteInduction (c := b.toNat < 0x40) (motive := (encode · = .cmd b))
    (fun _ => row rfl (toNat_append_extract_low (show b.toNat / 32 = 1 by omega))) fun _ => ?_
  refine iteInduction (c := b.toNat < 0x80) (motive := (encode · = .cmd b))
    (fun _ => row rfl (toNat_append_extract_low (show b.toNat / 64 = 1 by omega))) fun _ => ?_
  exact row rfl (toNat_append_extract_low (show b.toNat / 128 = 1 by omega))

theorem encode_decodeDesc (w : Word) : encode (decodeDesc w) = .desc w := by
  have head : ∀ {t : BitVec 4}, wordTag w = t → Encoded.desc (packHead t (wordHead w)) = .desc w := by
    rintro _ rfl
    exact congrArg Encoded.desc (packHead_wordHead w)
  unfold decodeDesc
  iterate 7 refine iteInduction (motive := (encode · = .desc w)) head fun _ => ?_
  refine iteInduction (motive := (encode · = .desc w))
    (fun h => congrArg Encoded.desc (packRange_wordRange h)) fun _ => ?_
  exact head (wordTag_of_unknown (by bv_omega)).symm

theorem decodeCmd_of_encode {i : Instr} {b : Byte} (h : encode i = .cmd b) : decodeCmd b = i := by
  cases i
  case reserved0c x | reserved10 x | reserved20 x | reserved40 x | reserved80 x =>
    cases h
    revert x
    decide
  case endList | bin | bs | ascii | bcdDate | bcd | content | range | unknownTag => exact Encoded.noConfusion h
  all_goals
    cases h
    rfl

/-- Where the tag's high bit is set, no row but the last takes the word (R88). -/
theorem decodeDesc_packHead_unknown (t : BitVec 3) (h : Head) :
    decodeDesc (packHead (1#1 ++ t) h) = .unknownTag t h := by
  have ht := t.isLt
  have htag : (1#1 ++ t).toNat = 8 + t.toNat := toNat_append_eq_add 1#1 t
  have hne : ∀ k : BitVec 4, k.toNat < 8 → ¬ 1#1 ++ t = k := by
    rintro _ hk rfl
    omega
  have hlow : (packHead (1#1 ++ t) h).extractLsb' 28 3 = t := by
    have hl := h.l.isLt
    have hrsv := h.rsv.isLt
    have hsize := h.size.isLt
    have hname := h.name.isLt
    apply BitVec.eq_of_toNat_eq
    rw [toNat_extract_eq_div_mod, packHead_toNat, htag]
    omega
  unfold decodeDesc
  rw [hlow, wordTag_packHead, wordHead_packHead]
  iterate 8 refine (if_neg (hne _ (by decide))).trans ?_
  rfl

theorem decodeDesc_of_encode {i : Instr} {w : Word} (h : encode i = .desc w) : decodeDesc w = i := by
  cases i
  case range r =>
    cases h
    simp [decodeDesc, wordTag_packRange, wordRange_packRange]
  case unknownTag t h' =>
    cases h
    exact decodeDesc_packHead_unknown t h'
  case endList | bin | bs | ascii | bcdDate | bcd | content =>
    cases h
    simp [decodeDesc, wordTag_packHead, wordHead_packHead]
  all_goals exact Encoded.noConfusion h

end Sys2Proof

open Sys2Proof

/-- Settles O1: an instruction is a command, a head word or a range word, and each format unpacks what it packed. -/
theorem encodeThenDecode : Obligations.EncodeThenDecode := by
  intro i
  cases h : encode i with
  | cmd b => exact decodeCmd_of_encode h
  | desc w => exact decodeDesc_of_encode h

/-- Settles O2: the fields of each format are all of its bits. -/
theorem decodeThenEncode : Obligations.DecodeThenEncode := by
  intro e
  cases e with
  | cmd b => exact encode_decodeCmd b
  | desc w => exact encode_decodeDesc w

/-- Settles O3, by evaluation of the decoder on the ten words. -/
theorem workedEncodings : Obligations.WorkedEncodings := by
  unfold Obligations.WorkedEncodings
  decide

/-- Settles O4: the listed opcodes by evaluation; a table word of 8 or 32 bits is decoded, any other rejected. -/
theorem opcodeMap : Obligations.OpcodeMap := by
  refine ⟨by decide, by decide, by decide, by decide, by decide, by decide, by decide, fun w hw => ?_,
    fun w hw => ?_, fun n w h8 h32 => ?_⟩
  · rw [decodeTableWord, decode, if_pos rfl, if_pos hw]
    rfl
  · rw [decodeTableWord, decode, if_neg (by decide), if_pos rfl, if_pos hw]
    rfl
  · rw [decodeTableWord, decode, if_neg h8, if_neg h32]
    rfl
end

section
/-! SUPPORT. `raise` where its offset fits, and the descriptor words and reserved opcodes that raise. -/

namespace Sys2Proof.Machine

open Sys2Proof.Spec

/-! ### Raising as the rules state it (R296) -/

/-- With an offset that ERROFF holds, `raise` is the state change of the rule. -/
theorem raise_eq_raised {off : Nat} (h : off < 65536) (x : ErrName) (sub : Byte) (field : Half) (s : State) :
    raise x sub field off s = raised x.code sub field (BitVec.ofNat 16 off) s := by
  rw [raise, off16_of_lt h, if_pos h]
  rfl

/-- Raised at the descriptor under way, ERROFF is DP (R293). -/
theorem raise_at_dp {s : State} (h : s.dpPast = false) (x : ErrName) (sub : Byte) (field : Half) :
    raise x sub field s.dpIndex s = raised x.code sub field s.dp s := by
  have hindex : s.dpIndex = s.dp.toNat := by simp [State.dpIndex, h]
  rw [raise_eq_raised (dpIndex_lt h), hindex, BitVec.ofNat_toNat, BitVec.setWidth_eq]

/-- With nothing running, an error changes STATUS and the error registers only. -/
theorem raised_of_rest {s : State} (hpar : s.parsing = false) (hwalk : s.walking = false) (hcomp : s.comp = none)
    (code sub : Byte) (field off : Half) :
    raised code sub field off s = { s with status := failed s.status, err := ⟨code, sub, field, off⟩ } := by
  rw [raised, hpar, hwalk, ← hcomp]
  rfl

/-! ### Words that raise DictionaryError sub 2 (R89) -/

theorem plain_iff {h : Head} : h.plain = true ↔ h.l = 0#1 ∧ h.rsv = 0#3 := by
  simp [Head.plain]

theorem malformed_state {s : State} (hpast : s.dpPast = false) (h : Head) :
    (malformed h s).state = raised 6 2 h.name s.dp s :=
  raise_at_dp hpast ..

/-- The first check of each descriptor is exactly its row of R88's "must be" column. -/
theorem descriptor_of_malformed {i : Instr} {h : Head} (hwf : i.wf = false)
    (hi : i = .endList h ∨ i = .bin h ∨ i = .bs h ∨ i = .ascii h ∨ i = .bcdDate h ∨ i = .bcd h
      ∨ i = .content h) (s : State) : descriptor i s = malformed h s := by
  rcases hi with rfl | rfl | rfl | rfl | rfl | rfl | rfl
  all_goals
    refine if_pos ?_
    simp only [Instr.wf, Head.plain, Bool.and_eq_false_iff, beq_eq_false_iff_ne] at hwf
    grind

/-! ### END and CONTENT (R166, R176) -/

theorem endListBody_of_zero {h : Head} (hzero : h = Head.zero) (s : State) :
    endListBody h s = .cont
      { s with
        res := { s.res with rem := s.res.pEnd - s.cur }
        status := { s.status with recValid := true }
        ism := .done } :=
  if_neg (not_not_intro hzero)

theorem content_guard {h : Head} (hplain : h.plain = true) (hsize : h.size = 0#8) :
    ¬ (h.rsv ≠ 0#3 ∨ h.l ≠ 0#1 ∨ h.size ≠ 0#8) := by
  obtain ⟨hl, hrsv⟩ := plain_iff.mp hplain
  simp [hl, hrsv, hsize]

theorem contentBody_of_room {h : Head} {s : State} (hplain : h.plain = true) (hsize : h.size = 0#8)
    (hvld : s.lenVld = true) (hroom : s.cur.toNat + s.lenVal ≤ s.res.pEnd.toNat) :
    contentBody h s
      = .cont (advance s.lenVal 1 (emit h.name (.content (payBytes s s.cur.toNat s.lenVal)) s)) := by
  refine guard_passes (content_guard hplain hsize) (guard_passes (by simp [hvld]) ?_)
  rw [need_of_room hroom, bind_cont, payRange_eq_payBytes]

theorem contentBody_without_length {h : Head} {s : State} (hplain : h.plain = true) (hsize : h.size = 0#8)
    (hvld : s.lenVld = false) : contentBody h s = .stop (raise .missingLengthField 0 h.name s.dpIndex s) :=
  guard_passes (content_guard hplain hsize) (if_pos hvld)

/-! ### Range words (R146) -/

section
variable {r : RangeFields} {c : Composite} {s : State}

theorem rangeTurn_of_ok (hhi : r.rsvHi = 0#5) (hlo : r.rsvLo = 0#1) (horder : r.start.toNat ≤ r.stop.toNat) :
    rangeTurn r c s
      = .cont { s with comp := some { c with pos := c.pos + 1, subs := c.subs ++ [subOf c.byte r] } } := by
  refine guard_passes (by simp [hhi, hlo]) (guard_passes (Nat.not_lt.mpr horder) ?_)
  rw [extract_eq_bitField]
  rfl

theorem rangeTurn_of_reserved (h : r.rsvHi ≠ 0#5 ∨ r.rsvLo ≠ 0#1) :
    rangeTurn r c s = .stop (raise .dictionary 2 r.sub c.pos s) :=
  if_pos h

theorem rangeTurn_of_order (hhi : r.rsvHi = 0#5) (hlo : r.rsvLo = 0#1) (horder : r.stop.toNat < r.start.toNat) :
    rangeTurn r c s = .stop (raise .dictionary 1 r.sub c.pos s) :=
  guard_passes (by simp [hhi, hlo]) (if_pos horder)

theorem exec_range_of_comp (hc : s.comp = some c) : exec (.range r) s = .next (rangeTurn r c s).state := by
  have hbody : rangeBody r s = rangeTurn r c s := by rw [rangeBody, hc]
  exact congrArg (fun x : Stage => Host.Outcome.next x.state) hbody

theorem exec_range_of_misplaced (hc : s.comp = none) :
    exec (.range r) s = .next (raise .dictionary 2 r.sub s.dpIndex s) := by
  have hbody : rangeBody r s = raiseStage .dictionary 2 r.sub s.dpIndex s := by rw [rangeBody, hc]
  exact congrArg (fun x : Stage => Host.Outcome.next x.state) hbody

end

/-! ### Reserved opcodes (R83, R302) -/

/-- Every opcode from 0x0C on is issued as a reserved one. -/
theorem exec_of_reserved {i : Instr} {b : Byte} (h : encode i = .cmd b) (hb : 0x0C ≤ b.toNat) (s : State) :
    exec i s = .next (issueReserved b s) := by
  cases i
  case reserved0c | reserved10 | reserved20 | reserved40 | reserved80 =>
    cases h
    rfl
  case endList | bin | bs | ascii | bcdDate | bcd | content | range | unknownTag => exact Encoded.noConfusion h
  all_goals
    cases h
    exact absurd hb (by decide)

theorem exec_enca_without_encoder {s : State} (h : s.cfg.val.hasEncoder = false) :
    exec .enca s = .next (issueReserved 0x0B#8 s) :=
  congrArg Host.Outcome.next (if_neg (ne_true_of_eq_false h))

theorem issueReserved_of_rest {s : State} (h : s.AtRest) (b : Byte) :
    issueReserved b s = { s with status := failed s.status, err := ⟨7, 0, BitVec.ofNat 16 b.toNat, 0⟩ } := by
  obtain ⟨-, hpar, hwalk, hcomp⟩ := h
  have hraise : raise .badCommand 0 (b.setWidth 16) 0 (issueBegin s)
      = raised 7 0 (BitVec.ofNat 16 b.toNat) 0 (issueBegin s) := by
    rw [raise_eq_raised (by decide), BitVec.ofNat_toNat]
    rfl
  show issueEnd (raise .badCommand 0 (b.setWidth 16) 0 (issueBegin s)) = _
  rw [hraise, raised_of_rest (s := issueBegin s) hpar hwalk hcomp]
  rfl

end Sys2Proof.Machine

open Sys2Proof Sys2Proof.Machine Sys2Proof.Spec

/-- Settles O5: the step takes the access, and a write of number 0 is a command. -/
theorem stepRunsCommand : Obligations.StepRunsCommand := by
  intro s v rest hidle hinbox
  rw [step_cons hinbox, access_of_idle (by exact hidle)]
  rfl

/-- Settles O26: all rows of reserved opcodes are one issue, and 0x0B without the encoder is the same. -/
theorem reservedOpcodesRaise : Obligations.ReservedOpcodesRaise := by
  intro s opc hrest hopc
  rw [← issueReserved_of_rest hrest]
  rcases hopc with hhigh | ⟨rfl, henc⟩
  · exact exec_of_reserved (encode_decodeCmd opc) hhigh s
  · exact exec_enca_without_encoder henc

/-- Settles O41: the zero word passes END's one check, and any other word fails it. -/
theorem endWord : Obligations.EndWord := by
  intro s h
  refine ⟨fun hzero => ?_, fun hzero hpast => ?_⟩
  · exact congrArg (fun x : Stage => Host.Outcome.next x.state) (endListBody_of_zero hzero s)
  · have hwf : (Instr.endList h).wf = false := beq_eq_false_iff_ne.mpr hzero
    rw [exec_descriptor (not_command_of_word rfl), descriptor_of_malformed hwf (.inl rfl), malformed_state hpast]

/-- Settles O47, with and without a length field. -/
theorem contentField : Obligations.ContentField := by
  intro s h hplain hsize hpast
  have hexec := exec_descriptor (i := .content h) (not_command_of_word rfl) s
  rw [show descriptor (.content h) s = contentBody h s from rfl] at hexec
  refine ⟨fun hvld hroom => ?_, fun hvld => ?_⟩
  · rw [contentBody_of_room hplain hsize hvld hroom] at hexec
    exact ⟨_, hexec, advance_advanced _ (dpIndex_lt hpast), advance_eq ..⟩
  · rw [contentBody_without_length hplain hsize hvld, state_stop, raise_at_dp hpast] at hexec
    exact hexec

/-- Settles O48, along the checks of one turn of the composite's loop. -/
theorem rangeWord : Obligations.RangeWord := by
  intro s r
  refine ⟨fun c hc => ⟨fun hhi hlo horder => ?_, fun hpos hrsv => ?_, fun hpos hhi hlo horder => ?_⟩,
    fun hc hpast => ?_⟩
  · rw [exec_range_of_comp hc, rangeTurn_of_ok hhi hlo horder, state_cont]
  · rw [exec_range_of_comp hc, rangeTurn_of_reserved hrsv, state_stop, raise_eq_raised hpos]
    rfl
  · rw [exec_range_of_comp hc, rangeTurn_of_order hhi hlo horder, state_stop, raise_eq_raised hpos]
    rfl
  · rw [exec_range_of_misplaced hc, raise_at_dp hpast]
    rfl

/-- Settles O49: the tag is the high bit above the three that the word keeps. -/
theorem unknownTagWord : Obligations.UnknownTagWord := by
  intro s tag h hpast
  have htag : (1#1 ++ tag).setWidth 8 = BitVec.ofNat 8 (8 + tag.toNat) := by
    rw [← BitVec.ofNat_toNat, toNat_append_eq_add]
    rfl
  rw [← htag]
  exact congrArg Host.Outcome.next (raise_at_dp hpast ..)

/-- Settles O50: whatever makes the word ill formed, the descriptor's first check fails. -/
theorem malformedHeadWords : Obligations.MalformedHeadWords := by
  intro s h i hpast hwf hi
  have hword : ¬ IsCommand i := by
    rcases hi with rfl | rfl | rfl | rfl | rfl | rfl | rfl
    all_goals exact not_command_of_word rfl
  rw [exec_descriptor hword, descriptor_of_malformed hwf hi, malformed_state hpast]
end

section
/-! SUPPORT. How a PARSE command ends once its payload is delegated, for all three protocols at once. -/

namespace Sys2Proof.Machine

open Sys2Proof.Spec

/-! ### What a failed PARSE command leaves unchanged (R297) -/

/-- The results that a PARSE command does not write (R205, R220, R232). -/
def resultsBesideParse : Instr → ResRegs → ResRegs
  | .parsea, r =>
    { ResRegs.zero with
      rSum := r.rSum, rCrc := r.rCrc, rBits := r.rBits, rBitw := r.rBitw, txLen := r.txLen
      hkDecl := r.hkDecl, hkComp := r.hkComp, bAtype := r.bAtype, bLaddr := r.bLaddr, bTrail := r.bTrail }
  | .parseb, r =>
    { ResRegs.zero with
      rSum := r.rSum, rCrc := r.rCrc, rBits := r.rBits, rBitw := r.rBitw, txLen := r.txLen
      fFunc := r.fFunc, fSeq := r.fSeq, fIdent := r.fIdent }
  | .parsec, r =>
    { ResRegs.zero with
      rSum := r.rSum, rCrc := r.rCrc, rBits := r.rBits, rBitw := r.rBitw, txLen := r.txLen
      hkDecl := r.hkDecl, hkComp := r.hkComp, bAtype := r.bAtype, bLaddr := r.bLaddr, bTrail := r.bTrail
      fSeq := r.fSeq, fIdent := r.fIdent }
  | _, r => r

/-- The frame of a failed PARSE command: what is left of the state without all that the command, an error and the walk
write. -/
def State.besideFailed (i : Instr) (s : State) : State :=
  { State.resetWith s.cfg with
    buf := s.buf
    tx := s.tx
    txGen := s.txGen
    op := s.op
    seq := s.seq
    inbox := s.inbox
    reply := s.reply
    res := resultsBesideParse i s.res }

section
variable {i : Instr} {s t : State}

theorem failedKeeps_of_beside (hi : IsParse i) (h : t.besideFailed i = s.besideFailed i) : FailedKeeps i s t := by
  have hinputs := view_eq (fun u => (u.cfg, u.op, u.seq, u.inbox, u.reply)) h
  simp only [Prod.mk.injEq] at hinputs
  have hres : resultsBesideParse i t.res = resultsBesideParse i s.res := congrArg State.res h
  refine ⟨hinputs, ⟨fun a => view_eq (State.bufByte · a) h, fun a => view_eq (State.txByte · a) h⟩, ?_⟩
  rcases hi with rfl | rfl | rfl
  all_goals
    simp only [resultsBesideParse, ResRegs.mk.injEq] at hres
    simp [hres]

theorem besideFailed_setCheck (hi : IsParse i) (d c : Half) (f : Fsm) :
    ((setCheck d c (s.enter .checksum)).enter f).besideFailed i = s.besideFailed i := by
  rcases hi with rfl | rfl | rfl
  all_goals rfl

theorem besideFailed_spoilControl (hi : IsParse i) (s : State) :
    (spoilControl s).besideFailed i = s.besideFailed i := by
  rcases hi with rfl | rfl | rfl
  all_goals rfl

theorem besideFailed_spoilRecord (hi : IsParse i) (s : State) :
    (spoilRecord s).besideFailed i = s.besideFailed i := by
  rcases hi with rfl | rfl | rfl
  all_goals rfl

theorem besideFailed_spoilPayload (hi : IsParse i) (s : State) :
    (spoilPayload s).besideFailed i = s.besideFailed i := by
  rcases hi with rfl | rfl | rfl
  all_goals rfl

theorem besideFailed_spoilFrame (hi : IsParse i) (s : State) :
    (spoilFrame s).besideFailed i = s.besideFailed i := by
  rcases hi with rfl | rfl | rfl
  all_goals rfl

theorem besideFailed_spoilAddress (hi : IsParse i) (s : State) :
    (spoilAddress s).besideFailed i = s.besideFailed i := by
  rcases hi with rfl | rfl | rfl
  all_goals rfl

theorem besideFailed_spoilParse (hi : IsParse i) (s : State) : (spoilParse s).besideFailed i = s.besideFailed i := by
  rw [besideFailed_spoilAddress hi, besideFailed_spoilFrame hi, besideFailed_spoilPayload hi,
    besideFailed_spoilRecord hi, besideFailed_spoilControl hi]

theorem besideFailed_commandSpoil (hi : IsParse i) (e : Bool) :
    (commandSpoil e i s).besideFailed i = s.besideFailed i := by
  rw [← besideFailed_spoilParse hi s]
  rcases hi with rfl | rfl | rfl
  all_goals rfl

/-- How a PARSE command that raised ends: what it writes is left open, REC_VALID is 0, and the error stands (R297). -/
structure EndsFailed (i : Instr) (v t : State) : Prop where
  err : t.err = v.err
  fsm : t.fsm = v.fsm
  status : t.status = v.status.recCleared.ended
  ism : t.ism = v.ism
  cur : t.cur = v.cur
  dp : t.dp = v.dp
  beside : t.besideFailed i = v.besideFailed i

theorem endsFailed_commandSpoil (hi : IsParse i) (e : Bool) (v : State) :
    EndsFailed i v (issueEnd (commandSpoil e i v)) := by
  have hview := view_eq (fun u => (u.err, u.fsm, u.ism, u.cur, u.dp)) (besideSpoiled_commandSpoil e i v)
  simp only [Prod.mk.injEq] at hview
  obtain ⟨herr, hfsm, hism, hcur, hdp⟩ := hview
  have hstatus : (commandSpoil e i v).status = v.status.recCleared := by
    rcases hi with rfl | rfl | rfl
    all_goals rfl
  exact ⟨herr, hfsm, congrArg Status.ended hstatus, hism, hcur, hdp, besideFailed_commandSpoil hi e⟩

end

/-! ### The payload's delegation (R238) -/

/-- The state but for what delegating the payload writes: a walk's registers or DICT_MISS. -/
def State.besideLookup (s : State) : State :=
  { s.besideWalk with status := { s.besideWalk.status with dictMiss := false } }

theorem delegate_beside (k : Option Nat) (p : State) :
    (delegate k p).Meets (fun u => u.besideLookup = p.besideLookup ∧ (p.walking = false → u.walking = false))
      (fun v => v.besideWalk = p.besideWalk) := by
  rcases delegate_cases k p with ⟨-, hmiss⟩ | ⟨base, -, hhit⟩
  · rw [hmiss]
    exact ⟨rfl, id⟩
  · rw [hhit]
    refine (interpret_meets base p).mono (fun u hu => ⟨view_eq State.besideLookup hu.beside, fun _ => ?_⟩)
      fun v hv => hv.beside
    rw [State.walking, hu.ism]

/-! ### Reads after the lookup -/

section
variable {s u : State} (h : u.buf = s.buf)
include h

theorem bufByte_of_buf (a : Nat) : u.bufByte a = s.bufByte a := by
  rw [State.bufByte, State.bufByte, h]

theorem wire_of_buf (a n : Nat) : wire u a n = wire s a n := by
  simp only [wire, bufByte_of_buf h]

theorem leNum_of_buf (a n : Nat) : leNum u a n = leNum s a n := by
  simp only [leNum, bufByte_of_buf h]

theorem byteSum_of_buf (a n : Nat) : byteSum u a n = byteSum s a n := by
  simp only [byteSum, bufByte_of_buf h]
end

theorem frameN_of_op {s u : State} (h : u.op = s.op) : frameN u = frameN s := by
  rw [frameN, frameN, h]

/-! ### From the lookup to the command's end -/

theorem isCommand_of_isParse {i : Instr} (hi : IsParse i) : IsCommand i := by
  rcases hi with rfl | rfl | rfl
  all_goals exact ⟨_, rfl⟩

theorem done_eq_ended {f : Status} (h : f.err = false) : done f = f.ended := by
  simp [done, Status.ended, h]

section
variable {i : Instr} {s u v : State} {hk : Bool} {a0 a1 : Memory} {r : ResRegs}

/-- After the lookup the frame in BUF and its declared length stand as they did before. -/
theorem frame_of_lookup (h : u.besideLookup = (payloadState s hk a0 a1 r).besideLookup) :
    u.buf = s.buf ∧ u.op = s.op ∧ u.res.fLen = r.fLen := by
  have hview := view_eq (fun w => (w.buf, w.op, w.res.fLen)) h
  simp only [Prod.mk.injEq] at hview
  exact hview

theorem besideFailed_of_lookup (hi : IsParse i) (h : u.besideLookup = v.besideLookup) :
    u.besideFailed i = v.besideFailed i := by
  refine view_eq (State.besideFailed i) h fun w => ?_
  rcases hi with rfl | rfl | rfl
  all_goals rfl

theorem besideFailed_of_walk (hi : IsParse i) (h : u.besideWalk = v.besideWalk) :
    u.besideFailed i = v.besideFailed i :=
  besideFailed_of_lookup hi (view_eq State.besideLookup h)

/-- The end marker stands where it stood when the command was issued (R242). -/
theorem endMark_iff (hbuf : u.buf = s.buf) (hop : u.op = s.op) :
    u.bufByte (u.frameLen - 1) = endMarker ↔ EndMark s := by
  rw [bufByte_of_buf hbuf, State.frameLen, hop]
  rfl

section
variable {check : State → Stage} {decl comp : Half}

theorem trailer_of_good (hcheck : check u = .cont (setCheck decl comp (u.enter .checksum)))
    (hend : u.bufByte (u.frameLen - 1) = endMarker) :
    (check u).bind endStage = .cont ((setCheck decl comp (u.enter .checksum)).enter .done) := by
  rw [hcheck, bind_cont]
  rcases endStage_cases (setCheck decl comp (u.enter .checksum)) with ⟨-, hdone⟩ | ⟨hbad, -⟩
  · exact hdone
  · exact absurd hend hbad

theorem trailer_of_bad (hcheck : check u = .cont (setCheck decl comp (u.enter .checksum)))
    (hend : u.bufByte (u.frameLen - 1) ≠ endMarker) :
    (check u).bind endStage
      = .stop (raise .envelope 2 13 (u.frameLen - 1) ((setCheck decl comp (u.enter .checksum)).enter .endMark)) := by
  rw [hcheck, bind_cont]
  rcases endStage_cases (setCheck decl comp (u.enter .checksum)) with ⟨hgood, -⟩ | ⟨-, hstop⟩
  · exact absurd hgood hend
  · exact hstop

/-- An error of the interpretation finds the flags as the stages before the lookup left them, REC_VALID apart. -/
theorem raised_of_walk (h : v.besideWalk = (payloadState s hk a0 a1 r).besideWalk) :
    v.status.raised.recCleared.ended
      = { failed v.status.raised with ckValid := false, dictMiss := false, recValid := false } := by
  have hflags : (v.status.ckValid, v.status.dictMiss) = (false, false) :=
    view_eq (fun u => (u.status.ckValid, u.status.dictMiss)) h
  obtain ⟨hck, hmiss⟩ := Prod.mk.inj hflags
  simp [Status.raised, Status.recCleared, Status.ended, failed, hck, hmiss]

/-- Protocol by protocol, only the stages before the lookup and the check values differ: from the lookup on, every
PARSE command ends as `ParseEnds` says (R215, R229, R238, R242, R243, R246, R297). -/
theorem parseEnds_of_body {k : Option Nat} (hi : IsParse i)
    (hkept : (payloadState s hk a0 a1 r).besideFailed i = s.besideFailed i)
    (hbody : commandBody s.cfg.val.hasEncoder i (issueBegin s)
      = (delegated s k (payloadState s hk a0 a1 r)).bind fun u => (check u).bind endStage)
    (hcheck : ∀ u : State, u.buf = s.buf → u.op = s.op → u.res.fLen = r.fLen →
      check u = .cont (setCheck decl comp (u.enter .checksum))) :
    ParseEnds i s (delegated s k (payloadState s hk a0 a1 r)) decl comp := by
  have hexec := exec_command (isCommand_of_isParse hi) s
  have hmeets := delegate_beside k (payloadState s hk a0 a1 r)
  rw [issue, hbody] at hexec
  rw [delegate_eq_delegated (s := s) (p := payloadState s hk a0 a1 r) rfl] at hmeets
  have hspoil := endsFailed_commandSpoil hi s.cfg.val.hasEncoder
  refine ⟨fun u hu hend => ?_, fun u hu hend ⟨_, _, hrest, _⟩ => ?_, fun u hu => ?_⟩
  all_goals rw [hu] at hexec hmeets
  · obtain ⟨hbeside, -⟩ := hmeets
    obtain ⟨hbuf, hop, hlen⟩ := frame_of_lookup hbeside
    have herr : u.status.err = false := view_eq (fun w => w.status.err) hbeside
    rw [bind_cont, trailer_of_good (hcheck u hbuf hop hlen) ((endMark_iff hbuf hop).mpr hend)] at hexec
    rw [hexec, done_eq_ended herr]
    rfl
  · obtain ⟨hbeside, hwalking⟩ := hmeets
    obtain ⟨hbuf, hop, hlen⟩ := frame_of_lookup hbeside
    have hoff : frameN s - 1 < 65536 := Nat.lt_of_le_of_lt (Nat.sub_le _ _) s.op.bufLen.isLt
    rw [bind_cont, trailer_of_bad (hcheck u hbuf hop hlen) (mt (endMark_iff hbuf hop).mp hend), State.frameLen,
      hop] at hexec
    obtain ⟨herr, hfsm, hstatus, hism, hcur, hdp, hbes⟩ := hspoil
      (raise .envelope 2 13 (frameN s - 1) ((setCheck decl comp (u.enter .checksum)).enter .endMark))
    refine ⟨_, hexec, ?_, hfsm, hstatus, ?_, hcur, hdp, failedKeeps_of_beside hi ?_⟩
    · rw [settle, herr, raise_err, off16_of_lt hoff]
      rfl
    · exact hism.trans (raise_ism_of_rest (hwalking hrest))
    · exact hbes.trans ((besideFailed_setCheck hi decl comp .endMark).trans
        ((besideFailed_of_lookup hi hbeside).trans hkept))
  · obtain ⟨x, sub, field, off, v, hv, rfl⟩ := hmeets
    obtain ⟨herr, hfsm, hstatus, hism, hcur, hdp, hbes⟩ := hspoil (raise x sub field off v)
    have hparsing : v.parsing = true := view_eq State.parsing hv
    refine ⟨_, hexec, herr, hfsm.trans ?_, hstatus.trans (raised_of_walk hv), hism, hcur, hdp,
      failedKeeps_of_beside hi (hbes.trans ((besideFailed_of_walk hi hv).trans hkept))⟩
    rw [raise_fsm, hparsing]
    rfl
end
end

end Sys2Proof.Machine

open Sys2Proof Sys2Proof.Machine Sys2Proof.Spec

/-- Settles O54: the frame reaches the lookup, and after it Protocol A compares the 8-bit checksum. -/
theorem parseaHit : Obligations.ParseaHit := by
  intro s hbody
  refine parseEnds_of_body (.inl rfl) rfl (parseaBody_eq_delegated hbody) fun u hbuf hop _ => ?_
  rw [checksumStageA_eq, ← bufByte_of_buf hbuf, ← byteSum_of_buf hbuf, ← frameN_of_op hop]
  rfl

/-- Settles O52: the key misses, so the payload stands as a range, and the end marker is good. -/
theorem parseaWithoutAddress : Obligations.ParseaWithoutAddress := by
  intro s ⟨hcap, hlen, hmark, hmatch, haddr, hend⟩ hmiss
  have hno : ¬ HasAddr s := not_not_intro haddr
  have ho : funcAt s = 4 := if_neg hno
  have hbody : BodyA s := ⟨hcap, headFaultA_eq_none.mpr ⟨hmark, hmatch, by omega⟩⟩
  have hdeleg := delegated_of_misses (p := payloadStateA s) (ho ▸ hmiss : Misses s (keyAt s (funcAt s)))
  obtain ⟨hends, -⟩ := parseaHit s hbody
  refine ⟨_, hends _ hdeleg hend, ?_⟩
  have hck : decide ((s.bufByte (frameN s - 2)).setWidth 16 = BitVec.ofNat 16 (byteSum s 3 (frameN s - 5) % 256))
      = decide ((s.bufByte (frameN s - 2)).toNat = byteSum s 3 (frameN s - 5) % 256) :=
    decide_eq_decide.mpr (setWidth_eq_ofNat_iff (by omega))
  have hrem : BitVec.ofNat 16 (frameN s - 2) - 10#16 = BitVec.ofNat 16 (frameN s - 12) := by
    rw [BitVec.ofNat_sub_ofNat_of_le _ _ (by decide) (by omega), Nat.sub_sub]
  rw [← hck, ← hrem]
  simp only [payloadStateA, payloadState, if_neg hno]
  rfl
end

section
/-! SUPPORT. The table-driven CRC engine computes the bit-serial CRC of the rules. -/

namespace Sys2Proof.Machine

open Sys2Proof.Spec

/-- The generator is linear: one iteration of a sum is the sum of the iterations (R120). -/
theorem crcShift_xor (c d : Half) : crcShift (c ^^^ d) = crcShift c ^^^ crcShift d := by
  have hform : ∀ x : Half, crcShift x = (x >>> 1) ^^^ (if x.getLsbD 0 then crcPoly else 0#16) := fun x => by
    unfold crcShift
    split <;> simp
  have hpoly : (if (c ^^^ d).getLsbD 0 then crcPoly else 0#16)
      = (if c.getLsbD 0 then crcPoly else 0#16) ^^^ (if d.getLsbD 0 then crcPoly else 0#16) := by
    rw [BitVec.getLsbD_xor]
    cases c.getLsbD 0 <;> cases d.getLsbD 0
    all_goals rfl
  rw [hform, hform c, hform d, hpoly, BitVec.ushiftRight_xor_distrib]
  ac_rfl

theorem crcShifts_xor (n : Nat) (c d : Half) : crcShifts n (c ^^^ d) = crcShifts n c ^^^ crcShifts n d := by
  induction n generalizing c d with
  | zero => rfl
  | succ n ih => rw [crcShifts, crcShift_xor, ih, crcShifts, crcShifts]

/-- While the bits shifted out are 0 the generator only shifts. -/
theorem crcShifts_of_low_zero {n : Nat} {c : Half} (h : ∀ i < n, c.getLsbD i = false) : crcShifts n c = c >>> n := by
  induction n generalizing c with
  | zero => simp [crcShifts]
  | succ n ih =>
    have hshift : crcShift c = c >>> 1 := if_neg (ne_true_of_eq_false (h 0 (Nat.succ_pos n)))
    have hlow : ∀ i < n, (c >>> 1).getLsbD i = false := fun i hi => by
      rw [BitVec.getLsbD_ushiftRight]
      exact h _ (by omega)
    rw [crcShifts, hshift, ih hlow, ← BitVec.shiftRight_add, Nat.add_comm]

/-- The table step is eight bit-serial ones: the high byte is only shifted, the low byte is looked up (R124). -/
theorem crcShifts_eight (x : Half) : crcShifts 8 x = (x >>> 8) ^^^ crcShifts 8 ((x.extractLsb' 0 8).setWidth 16) := by
  have hsplit : x = (x >>> 8 <<< 8) ^^^ (x.extractLsb' 0 8).setWidth 16 := by
    apply BitVec.eq_of_getLsbD_eq
    intro i hi
    by_cases hlow : i < 8
    · simp [hlow, hi]
    · have hback : 8 + (i - 8) = i := by omega
      simp [hlow, hi, hback]
  have hhigh : crcShifts 8 (x >>> 8 <<< 8) = x >>> 8 := by
    rw [crcShifts_of_low_zero fun i hi => by simp [hi]]
    apply BitVec.eq_of_getLsbD_eq
    intro i hi
    simp
    grind
  conv_lhs => rw [hsplit]
  rw [crcShifts_xor, hhigh]

theorem crcStep_eq_crcByte (c : Half) (b : Byte) : crcStep c b = crcByte c b := by
  have hhigh : (c ^^^ b.setWidth 16) >>> 8 = c >>> 8 := by
    apply BitVec.eq_of_getLsbD_eq
    intro i hi
    simp
  rw [crcByte, ← crcShifts_eq_iterate, crcShifts_eight, hhigh]
  rfl

theorem crcFold_eq_foldl (c : Half) (bs : List Byte) : crcFold c bs = bs.foldl crcByte c := by
  induction bs generalizing c with
  | nil => rfl
  | cons b bs ih => rw [crcFold, ih, crcStep_eq_crcByte, List.foldl_cons]

theorem crc16Of_eq_crcSerial (bs : List Byte) : crc16Of bs = crcSerial bs := by
  cases bs with
  | nil => rfl
  | cons b bs =>
    rw [crc16Of, crcFold_eq_foldl]
    rfl

theorem crc16_eq_crcSerial (s : State) (a e : Nat) : s.crc16 a e = crcSerial (wire s a (e - a)) := by
  rw [State.crc16, crc16Of_eq_crcSerial, bufRange_eq_wire]

end Sys2Proof.Machine
end

section
/-! SUPPORT. PARSEB from its issue to its end on a frame whose checks pass, stage by stage. -/

namespace Sys2Proof.Machine

open Sys2Proof.Spec

/-! ### Raw header fields -/

theorem extract_eq_ofNat {m : Nat} (lo n : Nat) (x : BitVec m) :
    x.extractLsb' lo n = BitVec.ofNat n (x.toNat / 2 ^ lo) := by
  rw [BitVec.extractLsb', Nat.shiftRight_eq_div_pow]

theorem addrLenB_eq (s : State) : s.addrLenB = addrLen s := by
  rw [State.addrLenB, toNat_extract_eq_div_mod, Nat.pow_zero, Nat.div_one]
  rfl

theorem addrLen_le (s : State) : addrLen s ≤ 16 := addrLenB_eq s ▸ addrLenB_le s

theorem bufLe16_eq (s : State) (a : Nat) : s.bufLe16 a = BitVec.ofNat 16 (leNum s a 2) := by
  rw [State.bufLe16, le_bufRange]

/-- A 16-bit number read from BUF equals a register exactly when the numbers do. -/
theorem decide_ofNat_leNum (s : State) (a : Nat) (v : Half) :
    decide (BitVec.ofNat 16 (leNum s a 2) = v) = decide (leNum s a 2 = v.toNat) := by
  have hlt : leNum s a 2 < 2 ^ 16 := leNum_lt s a 2
  rw [decide_eq_decide, ← BitVec.toNat_inj, BitVec.toNat_ofNat, Nat.mod_eq_of_lt hlt]

section
variable {s : State}

/-! ### Protocol B's stages before the payload (R221 to R227) -/

theorem lengthStageB_of_match (hlen : 3 ≤ s.frameLen) (hmatch : leNum s 1 2 = s.frameLen - 2) :
    lengthStageB s
      = .cont { s with fsm := .length, res := { s.res with fLen := BitVec.ofNat 16 (s.frameLen - 2) } } := by
  have hlt : leNum s 1 2 < 2 ^ 16 := leNum_lt s 1 2
  have hsame : (s.bufLe16 1).toNat = s.frameLen - 2 := by
    rw [bufLe16_eq, BitVec.toNat_ofNat, Nat.mod_eq_of_lt hlt, hmatch]
  refine guard_passes (Nat.not_lt.mpr hlen) (guard_passes (not_not_intro hsame) ?_)
  rw [← hmatch, ← bufLe16_eq]
  rfl

theorem controlStageB_of_room (hlen : 7 ≤ s.frameLen) :
    controlStageB s = .cont { s with fsm := .control, res := controlRes s.cfg.val.layoutB (s.bufByte 3) s.res } :=
  have hroom : 4 ≤ s.trailerB := Nat.le_sub_of_add_le hlen
  guard_passes (Nat.not_lt.mpr hroom) (congrArg Stage.cont (decodeControl_eq ..))

/-- A Protocol-B frame whose control byte is decoded (R201 to R222, R281). -/
def controlledB (s : State) : State :=
  let t := parseBegin (issueBegin s)
  { t with
    fsm := .control
    res := controlRes s.cfg.val.layoutB (s.bufByte 3) { t.res with fLen := BitVec.ofNat 16 (frameN s - 2) } }

theorem parsebHead_eq (hcap : frameN s ≤ s.cfg.val.bufCap) (hlen : 7 ≤ frameN s)
    (hmark : s.bufByte 0 = 0x68#8) (hmatch : leNum s 1 2 = frameN s - 2) :
    (((bufCheck (issueBegin s)).bind fun s => startStage (parseBegin s)).bind lengthStageB).bind controlStageB
      = .cont (controlledB s) := by
  have hstart : startStage (parseBegin (issueBegin s)) = .cont (parseBegin (issueBegin s)) :=
    startStage_of_marker (Nat.le_trans (by decide) hlen) hmark
  have hlength := lengthStageB_of_match (s := parseBegin (issueBegin s)) (Nat.le_trans (by decide) hlen) hmatch
  exact bind_of_cont (bind_of_cont (bind_of_cont (bufCheck_of_fits hcap) hstart) hlength)
    (controlStageB_of_room hlen)

/-! The stages behind the control byte read the frame in s, whose BUF no stage changes, and write to u. -/

/-- The address header in its registers (R223). -/
def headerB (s u : State) : State :=
  { u with
    fsm := .address
    res := { u.res with
      bAtype := BitVec.ofNat 2 ((s.bufByte 4).toNat / 64)
      bLaddr := BitVec.ofNat 2 ((s.bufByte 4).toNat / 16) } }

/-- The address bytes in ADDR0, reversed (R224, R225). -/
def addressedB (s u : State) : State :=
  { u with
    addr0 := Memory.ofBytes 0 (wire s 5 (addrLen s)).reverse
    res := { u.res with addr0Len := BitVec.ofNat 5 (addrLen s), addr1Len := 0#5 } }

/-- The trailing byte (R226). -/
def trailedB (s u : State) : State := { u with res := { u.res with bTrail := s.bufByte (5 + addrLen s) } }

/-- The header CRC, declared and computed, with its flag (R227). -/
def hcsCheckedB (s u : State) : State :=
  let hk := crcSerial (wire s 1 (5 + addrLen s))
  { u with
    fsm := .hcs
    status := { u.status with hkValid := decide (leNum s (6 + addrLen s) 2 = hk.toNat) }
    res := { u.res with hkDecl := BitVec.ofNat 16 (leNum s (6 + addrLen s) 2), hkComp := hk } }

theorem trailerB_of_op {u : State} (hop : u.op = s.op) : u.trailerB = frameN s - 3 := by
  rw [State.trailerB, State.frameLen, hop]

theorem addrLenB_of_buf {u : State} (hbuf : u.buf = s.buf) : u.addrLenB = addrLen s := by
  rw [addrLenB_eq, addrLen, bufByte_of_buf hbuf]

section
variable {u : State} (hbuf : u.buf = s.buf) (hop : u.op = s.op)
include hbuf hop

theorem addrHeaderStageB_of_room (hlen : 8 ≤ frameN s) : addrHeaderStageB u = .cont (headerB s u) := by
  refine guard_passes ?_ ?_
  · show ¬ u.trailerB < 5
    rw [trailerB_of_op hop]
    omega
  · rw [extract_eq_ofNat, extract_eq_ofNat, bufByte_of_buf (by exact hbuf)]
    rfl

theorem addressStageB_of_room (hlen : 8 + addrLen s ≤ frameN s) : addressStageB u = .cont (addressedB s u) := by
  refine guard_passes ?_ ?_
  · rw [trailerB_of_op hop, addrLenB_of_buf hbuf]
    omega
  · rw [addrLenB_of_buf hbuf, addressedB, ← wire_of_buf hbuf, ← bufRange_eq_wire]
    rfl

theorem trailStageB_of_room (hlen : 9 + addrLen s ≤ frameN s) : trailStageB u = .cont (trailedB s u) := by
  refine guard_passes ?_ ?_
  · rw [trailerB_of_op hop, addrLenB_of_buf hbuf]
    omega
  · rw [addrLenB_of_buf hbuf, bufByte_of_buf hbuf]
    rfl

theorem hcsStageB_of_room (hlen : 11 + addrLen s ≤ frameN s) : hcsStageB u = .cont (hcsCheckedB s u) := by
  have hbuf' : (u.enter .hcs).buf = s.buf := hbuf
  have hcomp : (u.enter .hcs).crc16 1 (6 + addrLen s) = crcSerial (wire s 1 (5 + addrLen s)) := by
    rw [crc16_eq_crcSerial, wire_of_buf hbuf', show 6 + addrLen s - 1 = 5 + addrLen s by omega]
  have hdecl : (u.enter .hcs).bufLe16 (6 + addrLen s) = BitVec.ofNat 16 (leNum s (6 + addrLen s) 2) := by
    rw [bufLe16_eq, leNum_of_buf hbuf']
  refine guard_passes ?_ ?_
  · rw [addrLenB_of_buf hbuf', trailerB_of_op (by exact hop)]
    omega
  · simp only [addrLenB_of_buf hbuf', hcomp, hdecl, hcsCheckedB, ← decide_ofNat_leNum]
    rfl

end

/-- A Protocol-B frame whose header is read and checked (R220 to R227). -/
def headedB (s : State) : State := hcsCheckedB s (trailedB s (addressedB s (headerB s (controlledB s))))

theorem headedB_frame (s : State) : (headedB s).buf = s.buf ∧ (headedB s).op = s.op := by
  simp only [headedB, hcsCheckedB, trailedB, addressedB, headerB, controlledB, parseBegin, issueBegin, and_self]

theorem parsebHeader_eq (hcap : frameN s ≤ s.cfg.val.bufCap) (hlen : 11 + addrLen s ≤ frameN s)
    (hmark : s.bufByte 0 = 0x68#8) (hmatch : leNum s 1 2 = frameN s - 2) :
    ((((((((bufCheck (issueBegin s)).bind fun s => startStage (parseBegin s)).bind lengthStageB).bind
      controlStageB).bind addrHeaderStageB).bind addressStageB).bind trailStageB).bind hcsStageB)
      = .cont (headedB s) := by
  have hcontrol := parsebHead_eq hcap (by omega) hmark hmatch
  have hheader := bind_of_cont hcontrol (addrHeaderStageB_of_room (s := s) rfl rfl (by omega))
  have haddress := bind_of_cont hheader (addressStageB_of_room (s := s) rfl rfl (by omega))
  have htrail := bind_of_cont haddress (trailStageB_of_room (s := s) rfl rfl (by omega))
  exact bind_of_cont htrail (hcsStageB_of_room rfl rfl hlen)

theorem payloadStateB_eq (s : State) :
    setPayload (8 + addrLen s) (frameN s - 3) 0#8 ((headedB s).enter .payload) = payloadStateB s := by
  simp only [payloadStateB, payloadState, headedB, hcsCheckedB, trailedB, addressedB, headerB, controlledB, setPayload,
    State.enter, parseBegin, issueBegin, controlRes]
  rfl

/-! ### The lookup (R228) -/

/-- A reversed address as the key function sees it (R24, R67). -/
theorem addr0Bytes_of_reversed {u : State} {a n : Nat} (h : u.addr0 = Memory.ofBytes 0 (wire s a n).reverse)
    (hlen : u.res.addr0Len.toNat = n) : u.addr0Bytes = (wire s a n).reverse := by
  rw [State.addr0Bytes, hlen]
  refine List.ext_getElem (by simp [wire]) fun i hi _ => ?_
  have hin : i < n := by simpa using hi
  simp [wire, addr0Byte_of_reversed h hin]

theorem payloadBytes_of_range {u : State} {a e : Nat} (hbuf : u.buf = s.buf)
    (hstart : u.res.pStart = BitVec.ofNat 16 a) (hend : u.res.pEnd = BitVec.ofNat 16 e) (ha : a < 65536)
    (he : e < 65536) : u.payloadBytes = wire s a (e - a) := by
  rw [State.payloadBytes, hstart, hend, BitVec.toNat_ofNat, BitVec.toNat_ofNat, Nat.mod_eq_of_lt ha,
    Nat.mod_eq_of_lt he, bufRange_eq_wire, wire_of_buf hbuf]

/-- The stages before the lookup pass exactly when marker and length are good and the header fits. -/
theorem headFaultB_eq_none :
    headFaultB s = none ↔ s.bufByte 0 = 0x68#8 ∧ leNum s 1 2 = frameN s - 2 ∧ 11 + addrLen s ≤ frameN s := by
  simp only [headFaultB, ite_some_eq_none, Decidable.not_not, and_true]
  constructor
  · rintro ⟨_, hmark, _, hmatch, _, _, _, _, hroom⟩
    exact ⟨hmark, hmatch, by omega⟩
  · rintro ⟨hmark, hmatch, hroom⟩
    refine ⟨?_, hmark, ?_, hmatch, ?_, ?_, ?_, ?_, ?_⟩
    all_goals omega

/-- At the lookup KEY_B sees the view of the rule (R228). -/
theorem keyViewB_payloadStateB (hroom : 11 + addrLen s ≤ frameN s) : (payloadStateB s).keyViewB = viewB s := by
  have hlen : frameN s < 65536 := s.op.bufLen.isLt
  have hal := addrLen_le s
  have haddr : (payloadStateB s).addr0Bytes = (wire s 5 (addrLen s)).reverse :=
    addr0Bytes_of_reversed rfl (Nat.mod_eq_of_lt (show addrLen s < 2 ^ 5 by omega))
  have hpayload : (payloadStateB s).payloadBytes = wire s (8 + addrLen s) (frameN s - 11 - addrLen s) := by
    rw [show frameN s - 11 - addrLen s = frameN s - 3 - (8 + addrLen s) by omega]
    exact payloadBytes_of_range rfl rfl rfl (by omega) (by omega)
  unfold State.keyViewB
  rw [haddr, hpayload]
  rfl

theorem payloadStageB_headedB (hroom : 11 + addrLen s ≤ frameN s) :
    payloadStageB (headedB s) = delegated s (keyOf s.cfg.val.keyB (viewB s)) (payloadStateB s) := by
  obtain ⟨hbuf, hop⟩ := headedB_frame s
  have hal : ((headedB s).enter .payload).addrLenB = addrLen s := addrLenB_of_buf hbuf
  have htrail : ((headedB s).enter .payload).trailerB = frameN s - 3 := trailerB_of_op hop
  have hstage : payloadStageB (headedB s)
      = delegate (keyOf s.cfg.val.keyB (payloadStateB s).keyViewB) (payloadStateB s) := by
    rw [← payloadStateB_eq, ← hal, ← htrail]
    rfl
  rw [hstage, keyViewB_payloadStateB hroom]
  exact delegate_eq_delegated rfl _

/-- On a frame that reaches the lookup, PARSEB delegates the payload from the state the earlier stages leave, and then
checks the trailer (R220). -/
theorem parsebBody_eq_delegated (h : BodyB s) :
    parsebBody (issueBegin s) = (delegated s (keyOf s.cfg.val.keyB (viewB s)) (payloadStateB s)).bind
      fun u => (checksumStageB u).bind endStage := by
  obtain ⟨hcap, hhead⟩ := h
  obtain ⟨hmark, hmatch, hroom⟩ := headFaultB_eq_none.mp hhead
  exact congrArg (fun x : Stage => x.bind fun u => (checksumStageB u).bind endStage)
    (bind_of_cont (parsebHeader_eq hcap hroom hmark hmatch) (payloadStageB_headedB hroom))

/-- The frame CRC's registers and flag (R229). -/
theorem checksumStageB_of_frame {u : State} (hbuf : u.buf = s.buf) (hop : u.op = s.op) :
    checksumStageB u = .cont (setCheck (BitVec.ofNat 16 (leNum s (frameN s - 3) 2))
      (crcSerial (wire s 1 (frameN s - 4))) (u.enter .checksum)) := by
  have hbuf' : (u.enter .checksum).buf = s.buf := hbuf
  have htrail : (u.enter .checksum).trailerB = frameN s - 3 := trailerB_of_op hop
  dsimp only [checksumStageB]
  rw [htrail, bufLe16_eq, crc16_eq_crcSerial, leNum_of_buf hbuf', wire_of_buf hbuf', Nat.sub_sub]

/-- Without a base in the dictionary the payload stands as a range (R238). -/
theorem delegated_of_not_found {p : State} {k : Option Nat} (h : found s k = none) :
    delegated s k p = .cont (lookupMiss p) := by
  rw [delegated, h]
  rfl

end
end Sys2Proof.Machine

open Sys2Proof Sys2Proof.Machine Sys2Proof.Spec

/-- Settles O55: the frame reaches the lookup, and after it Protocol B compares the frame CRC; a miss is the case in
which the payload stands as a range. -/
theorem parsebResult : Obligations.ParsebResult := by
  have ends : ∀ s : State, BodyB s →
      ParseEnds .parseb s (delegated s (keyOf s.cfg.val.keyB (viewB s)) (payloadStateB s))
        (BitVec.ofNat 16 (leNum s (frameN s - 3) 2)) (crcSerial (wire s 1 (frameN s - 4))) := fun s hbody =>
    parseEnds_of_body (.inr (.inl rfl)) rfl (parsebBody_eq_delegated hbody) fun u hbuf hop _ =>
      checksumStageB_of_frame hbuf hop
  refine ⟨ends, fun s ⟨hcap, hlen, hmark, hmatch, hend⟩ hmiss => ?_⟩
  intro al n hk ck
  have hbody : BodyB s := ⟨hcap, headFaultB_eq_none.mpr ⟨hmark, hmatch, hlen⟩⟩
  obtain ⟨hgood, -⟩ := ends s hbody
  have hal : al ≤ 16 := addrLen_le s
  refine ⟨_, hgood _ (delegated_of_not_found hmiss) hend, fun i hi => ?_, ?_⟩
  · have haddr : (payloadStateB s).addr0 = Memory.ofBytes 0 (wire s 5 al).reverse := rfl
    exact (addr0Byte_of_reversed (by exact haddr) hi).trans (congrArg s.bufByte (by omega))
  · have hrem : BitVec.ofNat 16 (n - 3) - BitVec.ofNat 16 (8 + al) = BitVec.ofNat 16 (n - 11 - al) := by
      rw [BitVec.ofNat_sub_ofNat_of_le _ _ (by omega) (by omega)]
      congr 1
      omega
    rw [← decide_ofNat_leNum s (n - 3), ← hrem]
    simp only [payloadStateB, payloadState]
    rfl
end

section
/-! SUPPORT. PARSEC from its issue to its end on a frame whose checks pass, stage by stage. -/

namespace Sys2Proof.Machine

open Sys2Proof.Spec

section
variable {s : State}

/-! ### Protocol C's stages before the payload (R233 to R237): they read the frame in s and write to u -/

/-- The address in ADDR0, reversed (R233, R236). -/
def addressedC (s u : State) : State :=
  { u with
    fsm := .address
    addr0 := Memory.ofBytes 0 (wire s 1 6).reverse
    res := { u.res with addr0Len := 6#5, addr1Len := 0#5 } }

/-- The control byte decoded, and the function code in its low five bits (R235). -/
def controlledC (s u : State) : State :=
  { u with
    fsm := .control
    res := { controlRes s.cfg.val.layoutC (s.bufByte 8) u.res with
      fFunc := BitVec.ofNat 8 ((s.bufByte 8).toNat % 32) } }

section
variable {u : State} (hbuf : u.buf = s.buf) (hop : u.op = s.op)
include hbuf hop

theorem addressStageC_of_room (hlen : 7 ≤ frameN s) : addressStageC u = .cont (addressedC s u) := by
  refine guard_passes ?_ ?_
  · show ¬ frameN u < 7
    rw [frameN_of_op hop]
    omega
  · rw [addressedC, ← wire_of_buf hbuf, ← bufRange_eq_wire]
    rfl

theorem start2StageC_of_marker (hlen : 8 ≤ frameN s) (hmark : s.bufByte 7 = 0x68#8) :
    start2StageC u = .cont (u.enter .start) := by
  refine guard_passes ?_ (guard_passes (not_not_intro ?_) rfl)
  · show ¬ frameN u < 8
    rw [frameN_of_op hop]
    omega
  · exact (bufByte_of_buf (by exact hbuf) 7).trans hmark

theorem controlStageC_of_room (hcfg : u.cfg = s.cfg) (hlen : 9 ≤ frameN s) :
    controlStageC u = .cont (controlledC s u) := by
  have hfunc : ∀ b : Byte, (b.extractLsb' 0 5).setWidth 8 = BitVec.ofNat 8 (b.toNat % 32) := fun b => by
    rw [← BitVec.ofNat_toNat, toNat_extract_eq_div_mod, Nat.pow_zero, Nat.div_one]
    rfl
  refine guard_passes ?_ ?_
  · show ¬ frameN u < 9
    rw [frameN_of_op hop]
    omega
  · rw [decodeControlAt, decodeControl_eq, controlledC, ← hfunc, ← bufByte_of_buf hbuf, ← hcfg]
    rfl

theorem lengthStageC_of_match (hmatch : frameN s = (s.bufByte 9).toNat + 12) :
    lengthStageC u
      = .cont { u with fsm := .length, res := { u.res with fLen := BitVec.ofNat 16 (frameN s - 12) } } := by
  have hfield : (s.bufByte 9).setWidth 16 = BitVec.ofNat 16 (frameN s - 12) := by
    rw [hmatch, Nat.add_sub_cancel, BitVec.ofNat_toNat]
  have hbyte : (u.enter .length).bufByte 9 = s.bufByte 9 := bufByte_of_buf hbuf 9
  refine guard_passes ?_ (guard_passes (not_not_intro ?_) ?_)
  · show ¬ frameN u < 10
    rw [frameN_of_op hop]
    omega
  · show frameN u = (((u.enter .length).bufByte 9).setWidth 16).toNat + 12
    have := (s.bufByte 9).isLt
    rw [frameN_of_op hop, hbyte, BitVec.toNat_setWidth, hmatch]
    omega
  · rw [hbyte, hfield]
    rfl

end

/-- A Protocol-C frame whose fields before the payload are read (R232 to R237). -/
def headedC (s : State) : State :=
  let t := controlledC s ((addressedC s (parseBegin (issueBegin s))).enter .start)
  { t with fsm := .length, res := { t.res with fLen := BitVec.ofNat 16 (frameN s - 12) } }

/-- The stages before the lookup pass exactly when both markers and the length are good. -/
theorem headFaultC_eq_none :
    headFaultC s = none
      ↔ s.bufByte 0 = 0x68#8 ∧ s.bufByte 7 = 0x68#8 ∧ frameN s = (s.bufByte 9).toNat + 12 := by
  simp only [headFaultC, ite_some_eq_none, Decidable.not_not, and_true]
  constructor
  · rintro ⟨_, hmark, _, _, hmark2, _, _, hmatch⟩
    exact ⟨hmark, hmark2, hmatch⟩
  · rintro ⟨hmark, hmark2, hmatch⟩
    refine ⟨?_, hmark, ?_, ?_, hmark2, ?_, ?_, hmatch⟩
    all_goals omega

theorem parsecHead_eq (hcap : frameN s ≤ s.cfg.val.bufCap) (hmark : s.bufByte 0 = 0x68#8)
    (hmark2 : s.bufByte 7 = 0x68#8) (hmatch : frameN s = (s.bufByte 9).toNat + 12) :
    (((((bufCheck (issueBegin s)).bind fun s => startStage (parseBegin s)).bind addressStageC).bind
      start2StageC).bind controlStageC).bind lengthStageC = .cont (headedC s) := by
  have hstart : startStage (parseBegin (issueBegin s)) = .cont (parseBegin (issueBegin s)) :=
    startStage_of_marker (show 1 ≤ frameN s by omega) hmark
  have hfirst := bind_of_cont (f := fun s => startStage (parseBegin s)) (bufCheck_of_fits (s := issueBegin s) hcap)
    hstart
  have haddress := bind_of_cont hfirst (addressStageC_of_room (s := s) rfl rfl (by omega))
  have hstart2 := bind_of_cont haddress (start2StageC_of_marker (s := s) rfl rfl (by omega) hmark2)
  have hcontrol := bind_of_cont hstart2 (controlStageC_of_room (s := s) rfl rfl rfl (by omega))
  exact bind_of_cont hcontrol (lengthStageC_of_match rfl rfl hmatch)

theorem payloadStateC_eq (s : State) :
    setPayload 10 (frameN s - 2) obfuscation ((headedC s).enter .payload) = payloadStateC s := by
  simp only [payloadStateC, payloadState, headedC, addressedC, controlledC, setPayload, State.enter, parseBegin,
    issueBegin, controlRes]
  rfl

/-! ### The lookup (R239) -/

/-- E stands two bytes before the frame's end, wherever the length is read (R237). -/
theorem trailerC_of_length {u : State} (hlen : u.res.fLen = BitVec.ofNat 16 (frameN s - 12)) (hmin : 12 ≤ frameN s) :
    u.trailerC = frameN s - 2 := by
  have hlt : frameN s - 12 < 2 ^ 16 := Nat.lt_of_le_of_lt (Nat.sub_le _ _) s.op.bufLen.isLt
  rw [State.trailerC, hlen, BitVec.toNat_ofNat, Nat.mod_eq_of_lt hlt]
  omega

/-- At the lookup KEY_C sees the view of the rule (R239). -/
theorem keyViewC_payloadStateC (s : State) : (payloadStateC s).keyViewC = viewC s := by
  have hlen : frameN s < 65536 := s.op.bufLen.isLt
  have haddr : (payloadStateC s).addr0Bytes = (wire s 1 6).reverse := addr0Bytes_of_reversed rfl rfl
  have hpayload : (payloadStateC s).payloadBytes = wire s 10 (frameN s - 12) := by
    rw [show frameN s - 12 = frameN s - 2 - 10 by omega]
    exact payloadBytes_of_range rfl rfl rfl (by decide) (by omega)
  unfold State.keyViewC
  rw [haddr, hpayload]
  rfl

theorem payloadStageC_headedC (hmin : 12 ≤ frameN s) :
    payloadStageC (headedC s) = delegated s (keyOf s.cfg.val.keyC (viewC s)) (payloadStateC s) := by
  have htrail : (headedC s).trailerC = frameN s - 2 := trailerC_of_length rfl hmin
  have hstage : payloadStageC (headedC s)
      = delegate (keyOf s.cfg.val.keyC (payloadStateC s).keyViewC) (payloadStateC s) := by
    rw [← payloadStateC_eq, ← htrail]
    rfl
  rw [hstage, keyViewC_payloadStateC]
  exact delegate_eq_delegated rfl _

/-- On a frame that reaches the lookup, PARSEC delegates the payload from the state the earlier stages leave, and then
checks the trailer (R232). -/
theorem parsecBody_eq_delegated (h : BodyC s) :
    parsecBody (issueBegin s) = (delegated s (keyOf s.cfg.val.keyC (viewC s)) (payloadStateC s)).bind
      fun u => (checksumStageC u).bind endStage := by
  obtain ⟨hcap, hhead⟩ := h
  obtain ⟨hmark, hmark2, hmatch⟩ := headFaultC_eq_none.mp hhead
  exact congrArg (fun x : Stage => x.bind fun u => (checksumStageC u).bind endStage)
    (bind_of_cont (parsecHead_eq hcap hmark hmark2 hmatch) (payloadStageC_headedC (by omega)))

/-- The checksum over the bytes as stored (R241, R243). -/
theorem checksumStageC_of_frame {u : State} (hbuf : u.buf = s.buf)
    (hlen : u.res.fLen = BitVec.ofNat 16 (frameN s - 12)) (hmin : 12 ≤ frameN s) :
    checksumStageC u = .cont (setCheck ((s.bufByte (frameN s - 2)).setWidth 16)
      (BitVec.ofNat 16 (byteSum s 0 (frameN s - 2) % 256)) (u.enter .checksum)) := by
  have hbuf' : (u.enter .checksum).buf = s.buf := hbuf
  have htrail : (u.enter .checksum).trailerC = frameN s - 2 := trailerC_of_length hlen hmin
  dsimp only [checksumStageC]
  rw [htrail, bufByte_of_buf hbuf', ← BitVec.ofNat_toNat (x := State.checksum _ _ _), checksum_toNat,
    byteSum_of_buf hbuf', Nat.sub_zero]

/-- LAYOUT[C][FUNC] is bits 0 to 4, where the function code stands too (R7, R235). -/
theorem ciFunc_eq_low_five (c : WfConfig) (b : Byte) :
    ctlField b c.val.layoutC.func = BitVec.ofNat 8 (b.toNat % 32) := by
  have hwf := c.property
  simp only [Config.wf, Bool.and_eq_true, decide_eq_true_eq] at hwf
  obtain ⟨⟨_, _, hfunc⟩, _⟩ := hwf
  rw [hfunc]
  show BitVec.ofNat 8 (b.toNat / 2 ^ 0 % 32) = _
  rw [Nat.pow_zero, Nat.div_one]

end
end Sys2Proof.Machine

open Sys2Proof Sys2Proof.Machine Sys2Proof.Spec

/-- Settles O56: the frame reaches the lookup, and after it Protocol C compares the checksum of the stored bytes; a miss
is the case in which the payload stands as a range. -/
theorem parsecResult : Obligations.ParsecResult := by
  have ends : ∀ s : State, BodyC s →
      ParseEnds .parsec s (delegated s (keyOf s.cfg.val.keyC (viewC s)) (payloadStateC s))
        ((s.bufByte (frameN s - 2)).setWidth 16) (BitVec.ofNat 16 (byteSum s 0 (frameN s - 2) % 256)) := by
    intro s hbody
    obtain ⟨-, -, hmatch⟩ := headFaultC_eq_none.mp hbody.2
    exact parseEnds_of_body (.inr (.inr rfl)) rfl (parsecBody_eq_delegated hbody) fun u hbuf _ hlen =>
      checksumStageC_of_frame hbuf hlen (by omega)
  refine ⟨ends, fun s ⟨hcap, hlen, hmatch, hmark, hmark2, hend⟩ hmiss => ?_⟩
  intro n
  have hbody : BodyC s := ⟨hcap, headFaultC_eq_none.mpr ⟨hmark, hmark2, hmatch⟩⟩
  obtain ⟨hgood, -⟩ := ends s hbody
  refine ⟨_, hgood _ (delegated_of_not_found hmiss) hend, fun i hi => ?_, ciFunc_eq_low_five .., ?_⟩
  · have haddr : (payloadStateC s).addr0 = Memory.ofBytes 0 (wire s 1 6).reverse := rfl
    exact (addr0Byte_of_reversed (by exact haddr) hi).trans (congrArg s.bufByte (by omega))
  · have hck : decide ((s.bufByte (n - 2)).setWidth 16 = BitVec.ofNat 16 (byteSum s 0 (n - 2) % 256))
        = decide ((s.bufByte (n - 2)).toNat = byteSum s 0 (n - 2) % 256) :=
      decide_eq_decide.mpr (setWidth_eq_ofNat_iff (by omega))
    have hrem : BitVec.ofNat 16 (n - 2) - 10#16 = BitVec.ofNat 16 (n - 12) := by
      rw [BitVec.ofNat_sub_ofNat_of_le _ _ (by decide) (by omega), Nat.sub_sub]
    have hfield : (s.bufByte 9).toNat = n - 12 := by omega
    rw [← hck, ← hrem, hfield]
    simp only [payloadStateC, payloadState]
    rfl
end

section
/-! SUPPORT. CHKSUM from its issue to its end, and the algebra of the checksum engine. -/

namespace Sys2Proof.Machine

open Sys2Proof.Spec

/-! ### The checksum engine (R111, R112) -/

/-- The sum of a concatenation is the sum of the sums, which is why a range may be cut anywhere (R112). -/
theorem sum8_append (xs ys : List Byte) : sum8 (xs ++ ys) = sum8 xs + sum8 ys := by
  rw [sum8, sumFrom_append]
  exact sumFrom_eq_add ..

theorem checksum_split (s : State) {a m e : Nat} (ham : a ≤ m) (hme : m ≤ e) :
    s.checksum a e = s.checksum a m + s.checksum m e := by
  have hlen : e - a = (m - a) + (e - m) := by omega
  have hmid : a + (m - a) = m := by omega
  rw [State.checksum, hlen, bufRange_append, sum8_append, hmid]
  rfl

theorem sum8_perm {xs ys : List Byte} (h : xs.Perm ys) : sum8 xs = sum8 ys := by
  apply BitVec.eq_of_toNat_eq
  rw [sum8_toNat, sum8_toNat, (h.map BitVec.toNat).sum_nat]

theorem checksum_eq_ofNat (s : State) (a e : Nat) : s.checksum a e = BitVec.ofNat 8 (byteSum s a (e - a)) := by
  apply BitVec.eq_of_toNat_eq
  rw [checksum_toNat, BitVec.toNat_ofNat]

/-! ### How an issued command ends (R281) -/

section
variable {spoil : State → State} {body : State → Stage} {s t : State}

theorem issue_of_cont (h : body (issueBegin s) = .cont t) : issue spoil body s = issueEnd t :=
  congrArg (settle spoil) h

theorem issue_of_stop (h : body (issueBegin s) = .stop t) : issue spoil body s = issueEnd (spoil t) :=
  congrArg (settle spoil) h

end

/-! ### The three ends of CHKSUM's pseudocode (R110) -/

theorem rangeEmpty_iff {o : OpRegs} : o.rangeEmpty = true ↔ o.opEnd.toNat ≤ o.opStart.toNat :=
  decide_eq_true_iff

section
variable {s : State}

theorem chksumBody_of_empty (h : s.op.opEnd.toNat ≤ s.op.opStart.toNat) :
    chksumBody s = .cont { s with res := { s.res with rSum := 0#8 } } :=
  if_pos (rangeEmpty_iff.mpr h)

theorem chksumBody_of_fits (h : RangeFits s) :
    chksumBody s
      = .cont { s with res := { s.res with rSum := s.checksum s.op.opStart.toNat s.op.opEnd.toNat } } := by
  obtain ⟨hne, hend, hcap⟩ := h
  exact guard_passes (mt rangeEmpty_iff.mp (Nat.not_le.mpr hne))
    (bind_of_cont (bufCheck_of_fits hcap) (guard_passes (Nat.not_lt.mpr hend) rfl))

theorem chksumBody_past_bufLen (hne : s.op.opStart.toNat < s.op.opEnd.toNat)
    (hend : s.op.bufLen.toNat < s.op.opEnd.toNat) (hcap : s.op.bufLen.toNat ≤ s.cfg.val.bufCap) :
    chksumBody s = .stop (raise .range 1 0 s.op.opEnd.toNat s) :=
  guard_passes (mt rangeEmpty_iff.mp (Nat.not_le.mpr hne)) (bind_of_cont (bufCheck_of_fits hcap) (if_pos hend))

/-- A RangeError whose offset is an operand register, raised by a command issued at rest (R296). -/
theorem raise_range_of_rest (h : s.AtRest) (sub : Byte) (off : Half) :
    raise .range sub 0 off.toNat (issueBegin s)
      = { issueBegin s with status := failed s.status, err := ⟨8, sub, 0, off⟩ } := by
  obtain ⟨-, hpar, hwalk, hcomp⟩ := h
  rw [raise_eq_raised off.isLt, BitVec.ofNat_toNat, BitVec.setWidth_eq,
    raised_of_rest (s := issueBegin s) hpar hwalk hcomp]
  rfl

end
end Sys2Proof.Machine

open Sys2Proof Sys2Proof.Machine Sys2Proof.Spec

/-- Settles O28: the engine adds modulo 256, where a concatenation splits and the order of the terms is free. -/
theorem checksumSplits : Obligations.ChecksumSplits := by
  refine ⟨fun s a m e ham hme => ?_, fun _ _ => sum8_perm⟩
  rw [checksum_split s ham hme, BitVec.toNat_add]

/-- Settles O27, one clause for each end of the pseudocode. -/
theorem chksumResult : Obligations.ChksumResult := by
  intro s
  refine ⟨fun hempty => ?_, fun hfits => ?_, fun hrest hne hend hcap => ?_⟩
  · exact congrArg Host.Outcome.next (issue_of_cont (chksumBody_of_empty (s := issueBegin s) hempty))
  · have hsum : (issueBegin s).checksum s.op.opStart.toNat s.op.opEnd.toNat
        = BitVec.ofNat 8 (byteSum s s.op.opStart.toNat (s.op.opEnd.toNat - s.op.opStart.toNat)) :=
      checksum_eq_ofNat ..
    rw [← hsum]
    exact congrArg Host.Outcome.next (issue_of_cont (chksumBody_of_fits (s := issueBegin s) hfits))
  · have hbody : chksumBody (issueBegin s)
        = .stop { issueBegin s with status := failed s.status, err := ⟨8, 1, 0, s.op.opEnd⟩ } := by
      rw [← raise_range_of_rest hrest]
      exact chksumBody_past_bufLen (s := issueBegin s) hne hend hcap
    exact ⟨_, _, congrArg Host.Outcome.next (issue_of_stop hbody)⟩
end

section
/-! SUPPORT. The CRC engine's algebra after its linearity, and CRC16 and TBLRD from their issue to their end. -/

namespace Sys2Proof.Machine

open Sys2Proof.Spec

/-! ### The table and the residue (R121, R124, R128) -/

theorem crcRom_eq_iterate (b : Byte) : crcRom b = crcBit^[8] (b.setWidth 16) :=
  crcShifts_eq_iterate 8 _

/-- A listing in rows of eight may be compared row by row. -/
theorem map_range_add_eight {α : Type} {f : Nat → α} {n : Nat} {rows row : List α}
    (hrows : (List.range n).map f = rows) (hrow : (List.range' n 8).map f = row) :
    (List.range (n + 8)).map f = rows ++ row := by
  rw [← hrows, ← hrow, ← List.map_append, List.range_eq_range', List.range_eq_range', ← List.range'_append_1,
    Nat.zero_add]

theorem crcStep_eq_crcShifts (c : Half) (b : Byte) : crcStep c b = crcShifts 8 (c ^^^ b.setWidth 16) := by
  rw [crcStep_eq_crcByte, crcByte, crcShifts_eq_iterate]

/-- A byte in the high half is shifted down without meeting the polynomial. -/
theorem crcShifts_eight_high (b : Byte) : crcShifts 8 (b.setWidth 16 <<< 8) = b.setWidth 16 := by
  rw [crcShifts_of_low_zero fun i hi => by simp [hi]]
  apply BitVec.eq_of_getLsbD_eq
  intro i hi
  by_cases hbyte : i < 8
  · have hin : 8 + i < 16 := by omega
    simp [hin, hi]
  · have hzero : b.getLsbD i = false := BitVec.getLsbD_of_ge b i (Nat.le_of_not_lt hbyte)
    simp [hzero]

theorem low_xor_high (w : Half) :
    (w.extractLsb' 0 8).setWidth 16 ^^^ (w.extractLsb' 8 8).setWidth 16 <<< 8 = w := by
  apply BitVec.eq_of_getLsbD_eq
  intro i hi
  by_cases hlow : i < 8
  · simp [hlow, hi]
  · have hhigh : i - 8 < 8 ∧ i - 8 < 16 ∧ 8 + (i - 8) = i := by omega
    simp [hlow, hi, hhigh]

/-- A word read low byte first is sixteen iterations of the generator on its XOR with the register, since the high
byte may join the XOR before the first eight. -/
theorem crcFold_word (c w : Half) :
    crcFold c [w.extractLsb' 0 8, w.extractLsb' 8 8] = crcShifts 8 (crcShifts 8 (c ^^^ w)) := by
  have hjoin : crcShifts 8 (c ^^^ (w.extractLsb' 0 8).setWidth 16) ^^^ (w.extractLsb' 8 8).setWidth 16
      = crcShifts 8 (c ^^^ w) := by
    rw [← crcShifts_eight_high (w.extractLsb' 8 8), ← crcShifts_xor, BitVec.xor_assoc, low_xor_high]
  rw [crcFold, crcFold, crcFold, crcStep_eq_crcShifts, crcStep_eq_crcShifts, hjoin]

theorem crc16Of_of_ne_nil {bs : List Byte} (h : bs ≠ []) : crc16Of bs = crcFold crcSeed bs ^^^ crcXorOut := by
  cases bs with
  | nil => exact absurd rfl h
  | cons b bs => rfl

/-- A register followed by its own value under the final XOR cancels to XOROUT, whatever it was (R128). -/
theorem crcFold_own_crc (c : Half) :
    crcFold c [(c ^^^ crcXorOut).extractLsb' 0 8, (c ^^^ crcXorOut).extractLsb' 8 8] = 0xF0B8#16 := by
  have hlow : crcShifts 8 crcXorOut = 0x0F87#16 := by decide
  have hhigh : crcShifts 8 0x0F87#16 = 0xF0B8#16 := by decide
  rw [crcFold_word, ← BitVec.xor_assoc, BitVec.xor_self, BitVec.zero_xor, hlow, hhigh]

/-! ### The ends of the two commands' pseudocode (R125, R130) -/

theorem tblrdBody_eq (s : State) :
    tblrdBody s = .cont { s with res := { s.res with rCrc := crcBit^[8] (s.op.opByte.setWidth 16) } } := by
  rw [tblrdBody, crcRom_eq_iterate]

section
variable {s : State}

theorem crc16Body_of_empty (h : s.op.opEnd.toNat ≤ s.op.opStart.toNat) :
    crc16Body s = .cont { s with res := { s.res with rCrc := crcSeed } } :=
  if_pos (rangeEmpty_iff.mpr h)

/-- On a non-empty range only the comparison with BUF_LEN is left to decide. -/
theorem crc16Body_of_nonempty (hne : s.op.opStart.toNat < s.op.opEnd.toNat)
    (hcap : s.op.bufLen.toNat ≤ s.cfg.val.bufCap) :
    crc16Body s =
      if s.op.bufLen.toNat < s.op.opEnd.toNat then .stop (raise .range 1 0 s.op.opEnd.toNat s)
      else .cont { s with
        res := { s.res with
          rCrc := crcSerial (wire s s.op.opStart.toNat (s.op.opEnd.toNat - s.op.opStart.toNat)) } } := by
  rw [← crc16_eq_crcSerial]
  exact guard_passes (mt rangeEmpty_iff.mp (Nat.not_le.mpr hne)) (bind_of_cont (bufCheck_of_fits hcap) rfl)

end
end Sys2Proof.Machine

open Sys2Proof Sys2Proof.Machine Sys2Proof.Spec

/-- Settles O30: TBLRD has no check, and the entry it reads is the generator's output. -/
theorem tblrdResult : Obligations.TblrdResult := fun s =>
  congrArg Host.Outcome.next (issue_of_cont (tblrdBody_eq (issueBegin s)))

/-- Settles O31; the 256 values by evaluation of the generator on the 32 rows of the listing. -/
theorem crcTableListing : Obligations.CrcTableListing := by
  refine ⟨crcRom_eq_iterate, ?_⟩
  iterate 31 refine map_range_add_eight ?_ (by decide)
  decide

/-- Settles O32: the generator is linear, so the high byte of the register is only shifted. -/
theorem tableUpdateIsBitSerial : Obligations.TableUpdateIsBitSerial :=
  crcStep_eq_crcByte

/-- Settles O33: the appended CRC cancels the register that the message left. -/
theorem crcResidue : Obligations.CrcResidue := by
  intro m hm extended
  have hregister : crcFold crcSeed extended = 0xF0B8#16 := by
    rw [crcFold_append, crc16Of_of_ne_nil hm]
    exact crcFold_own_crc _
  refine ⟨?_, hregister⟩
  rw [crc16Of_of_ne_nil (List.append_ne_nil_of_left_ne_nil hm _), hregister]
  rfl

/-- Settles O29, one clause for each end of the pseudocode. -/
theorem crc16Result : Obligations.Crc16Result := by
  intro s
  refine ⟨fun hempty => ?_, fun ⟨hne, hend, hcap⟩ => ?_, fun hrest hne hend hcap => ?_⟩
  · exact congrArg Host.Outcome.next (issue_of_cont (crc16Body_of_empty (s := issueBegin s) hempty))
  · have hbody := (crc16Body_of_nonempty (s := issueBegin s) hne hcap).trans (if_neg (Nat.not_lt.mpr hend))
    exact congrArg Host.Outcome.next (issue_of_cont hbody)
  · have hbody := (crc16Body_of_nonempty (s := issueBegin s) hne hcap).trans (if_pos hend)
    have hraise : raise .range 1 0 (issueBegin s).op.opEnd.toNat (issueBegin s)
        = { issueBegin s with status := failed s.status, err := ⟨8, 1, 0, s.op.opEnd⟩ } :=
      raise_range_of_rest hrest 1 s.op.opEnd
    rw [hraise] at hbody
    exact ⟨_, _, congrArg Host.Outcome.next (issue_of_stop hbody)⟩
end

section
/-! SUPPORT. BITX and DCTL from their issue to their end. -/

namespace Sys2Proof.Machine

open Sys2Proof.Spec

/-! ### Errors of an issued command (R281, R296) -/

/-- An error with an offset that ERROFF holds, raised by a command issued at rest, changes STATUS and the error
registers only. -/
theorem raise_issued_of_rest {s : State} (h : s.AtRest) {off : Nat} (hoff : off < 65536) (x : ErrName) (sub : Byte)
    (field : Half) :
    raise x sub field off (issueBegin s)
      = { issueBegin s with status := failed s.status, err := ⟨x.code, sub, field, BitVec.ofNat 16 off⟩ } := by
  obtain ⟨-, hpar, hwalk, hcomp⟩ := h
  rw [raise_eq_raised hoff, raised_of_rest (s := issueBegin s) hpar hwalk hcomp]
  rfl

/-! ### The packed range of OP_SPEC (R91) -/

theorem specStart_toNat (o : OpRegs) : o.specStart.toNat = o.opSpec.toNat % 8 := by
  rw [OpRegs.specStart, toNat_extract_eq_div_mod]
  omega

/-- The reserved bits are zero exactly below 64. -/
theorem specRsv_eq_zero_iff (o : OpRegs) : o.specRsv = 0#2 ↔ o.opSpec.toNat < 64 := by
  have hspec := o.opSpec.isLt
  rw [← BitVec.toNat_inj, OpRegs.specRsv, toNat_extract_eq_div_mod, BitVec.toNat_ofNat]
  omega

/-- With the reserved bits zero, the end-bit is all that stands above the start-bit. -/
theorem specStop_toNat {o : OpRegs} (h : o.opSpec.toNat < 64) : o.specStop.toNat = o.opSpec.toNat / 8 := by
  rw [OpRegs.specStop, toNat_extract_eq_div_mod]
  omega

/-! ### The ends of the two commands' pseudocode (R141, R148) -/

section
variable {s : State}

theorem bitxBody_of_range (hrsv : s.op.opSpec.toNat < 64)
    (horder : s.op.opSpec.toNat % 8 ≤ s.op.opSpec.toNat / 8) :
    bitxBody s = .cont { s with
      res := { s.res with
        rBits := BitVec.ofNat 8 (s.op.opByte.toNat / 2 ^ (s.op.opSpec.toNat % 8)
          % 2 ^ (s.op.opSpec.toNat / 8 - s.op.opSpec.toNat % 8 + 1))
        rBitw := BitVec.ofNat 4 (s.op.opSpec.toNat / 8 - s.op.opSpec.toNat % 8 + 1) } } := by
  have hstop := specStop_toNat hrsv
  have hguard : ¬ (s.op.specRsv ≠ 0#2 ∨ s.op.specStop.toNat < s.op.specStart.toNat) := by
    rw [ne_eq, specRsv_eq_zero_iff, hstop, specStart_toNat]
    omega
  refine guard_passes hguard ?_
  rw [extract_eq_bitField, bitField, extractWidth, hstop, specStart_toNat]

theorem bitxBody_of_bad_range (h : 64 ≤ s.op.opSpec.toNat ∨ s.op.opSpec.toNat / 8 < s.op.opSpec.toNat % 8) :
    bitxBody s = .stop (raise .dictionary 1 0 0 s) := by
  refine if_pos ?_
  rw [ne_eq, specRsv_eq_zero_iff]
  by_cases hrsv : s.op.opSpec.toNat < 64
  · rw [specStop_toNat hrsv, specStart_toNat]
    omega
  · exact .inl hrsv

theorem dctlBody_of_proto {p : Proto} (h : s.op.proto = some p) :
    dctlBody s = .cont { s with res := controlRes (s.layout p) s.op.opByte s.res } := by
  rw [dctlBody, h, ← decodeControl_eq]

theorem dctlBody_of_reserved (h : s.op.opProto = 3) : dctlBody s = .stop (raise .range 2 0 3 s) := by
  have hproto : s.op.proto = none := by
    rw [OpRegs.proto, h]
    rfl
  rw [dctlBody, hproto]
  rfl

/-- The protocol number and its layout (R7, R28). -/
theorem proto_layout {l : Layout}
    (h : (s.op.opProto = 0 ∧ l = s.cfg.val.layoutA) ∨ (s.op.opProto = 1 ∧ l = s.cfg.val.layoutB)
      ∨ (s.op.opProto = 2 ∧ l = s.cfg.val.layoutC)) : ∃ p, s.op.proto = some p ∧ s.layout p = l := by
  unfold OpRegs.proto
  rcases h with ⟨hp, rfl⟩ | ⟨hp, rfl⟩ | ⟨hp, rfl⟩
  · exact ⟨.a, by rw [hp]; rfl, rfl⟩
  · exact ⟨.b, by rw [hp]; rfl, rfl⟩
  · exact ⟨.c, by rw [hp]; rfl, rfl⟩

end
end Sys2Proof.Machine

open Sys2Proof Sys2Proof.Machine Sys2Proof.Spec

/-- Settles O34: the check of the packed range is the statement's arithmetic, and so is the field behind it. -/
theorem bitxResult : Obligations.BitxResult := by
  intro s
  refine ⟨fun hrsv horder => ?_, fun hrest hbad => ?_⟩
  · exact congrArg Host.Outcome.next (issue_of_cont (bitxBody_of_range (s := issueBegin s) hrsv horder))
  · have hbody := bitxBody_of_bad_range (s := issueBegin s) hbad
    rw [raise_issued_of_rest hrest (by decide)] at hbody
    exact ⟨_, _, _, congrArg Host.Outcome.next (issue_of_stop hbody)⟩

/-- Settles O36: every protocol number but the reserved one selects its layout. -/
theorem dctlResult : Obligations.DctlResult := by
  intro s
  refine ⟨fun l hl => ?_, fun hrest hproto => ?_⟩
  · obtain ⟨p, hp, rfl⟩ := proto_layout hl
    exact congrArg Host.Outcome.next (issue_of_cont (dctlBody_of_proto (s := issueBegin s) hp))
  · have hbody := dctlBody_of_reserved (s := issueBegin s) hproto
    rw [raise_issued_of_rest hrest (by decide)] at hbody
    exact ⟨_, _, _, _, _, _, _, _, congrArg Host.Outcome.next (issue_of_stop hbody)⟩
end

section
/-! SUPPORT. Composites from their first range word to their last or to the first wrong one, and what runs them: BITC,
the BS word, and the turn of the walk. -/

namespace Sys2Proof.Machine

open Sys2Proof.Spec

/-! ### `raise` at any offset (R293, R296) -/

/-- `raise` is the state change of the rule wherever its offset stands; past 16 bits ERROFF is a free value. -/
theorem exists_raise_eq_raised (x : ErrName) (sub : Byte) (field : Half) (off : Nat) (s : State) :
    ∃ o d, OffsetOf o off ∧ raise x sub field off s = { raised x.code sub field o s with draws := d } :=
  ⟨s.off16 off, (raise x sub field off s).draws, off16_of_lt, rfl⟩

theorem eq_of_offsetOf_toNat {o p : Half} (h : OffsetOf o p.toNat) : o = p := by
  rw [h p.isLt, BitVec.ofNat_toNat, BitVec.setWidth_eq]

/-! ### Words by what they decode to (R85, R90) -/

theorem wordName_eq_ofNat (w : Word) : wordName w = BitVec.ofNat 16 w.toNat := by
  apply BitVec.eq_of_toNat_eq
  rw [wordName, toNat_extract_eq_div_mod, BitVec.toNat_ofNat, Nat.pow_zero, Nat.div_one]

/-- A word that decodes to a range word is that range word packed. -/
theorem word_of_range {w : Word} {r : RangeFields} (h : decodeDesc w = .range r) :
    wordTag w = 7#4 ∧ wordRange w = r := by
  have hw : packRange r = w := Encoded.desc.inj ((congrArg encode h).symm.trans (encode_decodeDesc w))
  rw [← hw]
  exact ⟨wordTag_packRange r, wordRange_packRange r⟩

/-- The words that decode to a BS word are those with its tag. -/
theorem decodeDesc_eq_bs_iff {w : Word} {h : Head} : decodeDesc w = .bs h ↔ wordTag w = 2#4 ∧ wordHead w = h := by
  refine ⟨fun hdec => ?_, fun ⟨htag, hhead⟩ => ?_⟩
  · have hw : packHead 2#4 h = w := Encoded.desc.inj ((congrArg encode hdec).symm.trans (encode_decodeDesc w))
    rw [← hw]
    exact ⟨wordTag_packHead 2#4 h, wordHead_packHead 2#4 h⟩
  · rw [← packHead_wordHead w, htag, hhead]
    exact decodeDesc_of_encode rfl

theorem wordTag_eq_range_iff (w : Word) : wordTag w = 7#4 ↔ w.toNat / 2 ^ 28 = 7 := by
  have hw := w.isLt
  rw [← BitVec.toNat_inj, wordTag, toNat_extract_eq_div_mod, BitVec.toNat_ofNat]
  omega

/-- A range word's reserved bits in the arithmetic of the rule. -/
theorem wordRange_reserved_iff (w : Word) :
    ((wordRange w).rsvHi ≠ 0#5 ∨ (wordRange w).rsvLo ≠ 0#1)
      ↔ w.toNat / 2 ^ 23 % 32 ≠ 0 ∨ w.toNat / 2 ^ 19 % 2 ≠ 0 := by
  simp only [wordRange, ne_eq, ← BitVec.toNat_inj, toNat_extract_eq_div_mod, BitVec.toNat_ofNat]
  rfl

theorem wordRange_order_iff (w : Word) :
    (wordRange w).stop.toNat < (wordRange w).start.toNat ↔ w.toNat / 2 ^ 20 % 8 < w.toNat / 2 ^ 16 % 8 := by
  simp only [wordRange, toNat_extract_eq_div_mod]
  rfl

/-! ### One range word (R145, R146) -/

theorem dromWord_withComp (s : State) (c : Option Composite) (i : Nat) :
    State.dromWord { s with comp := c } i = s.dromWord i := rfl

section
variable {s : State} {c : Composite}

theorem rangeFetch_past (hw : s.dromWord c.pos = none) :
    rangeFetch { s with comp := some c } = .stop (raise .dictionary 3 0 c.pos s) := by
  simp only [rangeFetch, dromWord_withComp, hw]
  rfl

theorem rangeFetch_of_tag {w : Word} (hw : s.dromWord c.pos = some w) (htag : wordTag w = 7#4) :
    rangeFetch { s with comp := some c } = rangeTurn (wordRange w) c { s with comp := some c } := by
  simp only [rangeFetch, dromWord_withComp, hw, htag, if_true, rangeBody]

theorem rangeFetch_of_other {w : Word} (hw : s.dromWord c.pos = some w) (htag : wordTag w ≠ 7#4) :
    rangeFetch { s with comp := some c } = .stop (raise .dictionary 2 (wordName w) c.pos s) := by
  simp only [rangeFetch, dromWord_withComp, hw, htag, if_false]
  rfl

/-- A word in range position that decodes to a well-formed range word gives its sub-value. -/
theorem rangeFetch_of_ok {r : RangeFields} (hword : (s.dromWord c.pos).map decodeDesc = some (.range r))
    (hok : r.ok = true) :
    rangeFetch { s with comp := some c }
      = .cont { s with comp := some { c with pos := c.pos + 1, subs := c.subs ++ [subOf c.byte r] } } := by
  obtain ⟨w, hw, hdec⟩ := Option.map_eq_some_iff.mp hword
  obtain ⟨htag, rfl⟩ := word_of_range hdec
  simp only [RangeFields.ok, Bool.and_eq_true, beq_iff_eq, decide_eq_true_eq] at hok
  obtain ⟨⟨hhi, hlo⟩, horder⟩ := hok
  rw [rangeFetch_of_tag hw htag, rangeTurn_of_ok hhi hlo horder]

/-- What the rule finds wrong with a word, by the fields that the decoder reads. -/
theorem rangeFault_of_word {q : Nat} {w : Word} (hw : s.dromWord q = some w) :
    rangeFault s q =
      if wordTag w ≠ 7#4 ∨ (wordRange w).rsvHi ≠ 0#5 ∨ (wordRange w).rsvLo ≠ 0#1 then
        some ⟨6, 2, wordName w, BitVec.ofNat 16 q⟩
      else if (wordRange w).stop.toNat < (wordRange w).start.toNat then
        some ⟨6, 1, wordName w, BitVec.ofNat 16 q⟩
      else none := by
  simp only [rangeFault, hw, ne_eq, wordTag_eq_range_iff, ← wordName_eq_ofNat, wordRange_order_iff]
  simp only [← ne_eq, wordRange_reserved_iff]

/-- The word in range position that the rule finds wrong raises the rule's error there. -/
theorem rangeFetch_of_fault {e : ErrRegs} (hfault : rangeFault s c.pos = some e) :
    e.code = 6 ∧ rangeFetch { s with comp := some c } = .stop (raise .dictionary e.sub e.field c.pos s) := by
  cases hw : s.dromWord c.pos with
  | none =>
    rw [rangeFault, hw] at hfault
    obtain rfl := Option.some.inj hfault
    exact ⟨rfl, rangeFetch_past hw⟩
  | some w =>
    rw [rangeFault_of_word hw] at hfault
    by_cases htag : wordTag w = 7#4
    · rw [rangeFetch_of_tag hw htag]
      by_cases hrsv : (wordRange w).rsvHi ≠ 0#5 ∨ (wordRange w).rsvLo ≠ 0#1
      · rw [if_pos (.inr hrsv)] at hfault
        obtain rfl := Option.some.inj hfault
        exact ⟨rfl, rangeTurn_of_reserved hrsv⟩
      · rw [if_neg (not_or.mpr ⟨not_not_intro htag, hrsv⟩)] at hfault
        obtain ⟨horder, he⟩ := Option.ite_none_right_eq_some.mp hfault
        obtain rfl := Option.some.inj he
        obtain ⟨hhi, hlo⟩ := not_or.mp hrsv
        exact ⟨rfl, rangeTurn_of_order (not_ne_iff.mp hhi) (not_ne_iff.mp hlo) horder⟩
    · rw [if_pos (.inl htag)] at hfault
      obtain rfl := Option.some.inj hfault
      exact ⟨rfl, rangeFetch_of_other hw htag⟩

end

/-! ### The words of a composite in order (R146) -/

/-- The first range word and the rest. -/
theorem rangesAt_cons {s : State} {p : Nat} {r : RangeFields} {rs : List RangeFields} :
    RangesAt s p (r :: rs)
      ↔ ((s.dromWord (p + 1)).map decodeDesc = some (.range r) ∧ r.ok = true) ∧ RangesAt s (p + 1) rs := by
  refine Fin.forall_fin_succ.trans (and_congr_right fun _ => forall_congr' fun j => ?_)
  rw [show p + 1 + (j.succ : Nat) = p + 1 + 1 + j by simp; omega]
  rfl

/-- Well-formed range words are run to their last, each adding its sub-value. -/
theorem rangeWords_of_ranges {s : State} {p : Nat} {rs : List RangeFields} (h : RangesAt s p rs) (b : Byte)
    (subs : List SubValue) (k : Nat) :
    rangeWords (rs.length + k) { s with comp := some ⟨b, p + 1, subs⟩ }
      = rangeWords k { s with comp := some ⟨b, p + 1 + rs.length, subs ++ rs.map (subOf b)⟩ } := by
  induction rs generalizing p subs with
  | nil => simp
  | cons r rs ih =>
    obtain ⟨⟨hword, hok⟩, hrest⟩ := rangesAt_cons.mp h
    have hpos : p + 1 + (r :: rs).length = p + 1 + 1 + rs.length := by simp; omega
    rw [List.length_cons, Nat.succ_add, rangeWords, rangeFetch_of_ok hword hok, bind_cont, ih hrest, ← hpos,
      List.append_assoc]
    rfl

theorem composite_of_ranges {s : State} {p k : Nat} {rs : List RangeFields} (hk : rs.length = k)
    (h : RangesAt s p rs) (b : Byte) :
    composite b p k s = .cont { s with comp := some ⟨b, p + 1 + k, rs.map (subOf b)⟩ } := by
  subst hk
  exact rangeWords_of_ranges h b [] 0

/-- The first range word found wrong ends the composite with its error. -/
theorem composite_of_fails {s : State} {p k : Nat} {rs : List RangeFields} {e : ErrRegs}
    (h : RangeFails s p k rs e) (b : Byte) :
    e.code = 6 ∧ composite b p k s = .stop (raise .dictionary e.sub e.field (p + 1 + rs.length) s) := by
  obtain ⟨hlt, hranges, hfault⟩ := h
  obtain ⟨m, rfl⟩ : ∃ m, k = rs.length + (m + 1) := ⟨k - rs.length - 1, by omega⟩
  obtain ⟨hcode, hfetch⟩ :=
    rangeFetch_of_fault (c := ⟨b, p + 1 + rs.length, [] ++ rs.map (subOf b)⟩) hfault
  refine ⟨hcode, ?_⟩
  rw [composite, rangeWords_of_ranges hranges, rangeWords, hfetch, bind_stop]

/-- A composite whose range words all stand in the DROM ends inside it. -/
theorem dpIndex_add_of_ranges {s : State} {rs : List RangeFields} (hpast : s.dpPast = false)
    (h : RangesAt s s.dpIndex rs) : s.dpIndex + (1 + rs.length) ≤ 65536 := by
  have hdp := dpIndex_lt hpast
  have hmax := dromSize_le s
  by_cases hempty : rs.length = 0
  · omega
  · obtain ⟨w, hw, -⟩ := Option.map_eq_some_iff.mp (h ⟨rs.length - 1, by omega⟩).1
    have hlast := dromWord_lt hw
    dsimp only at hlast
    omega

/-! ### The BS word (R170, R177) -/

theorem bsBody_of_room {h : Head} {s : State} (hplain : h.plain = true)
    (hroom : s.cur.toNat + 1 ≤ s.res.pEnd.toNat) :
    bsBody h s = (composite (payByte s s.cur.toNat) s.dpIndex h.size.toNat s).bind fun t =>
      .cont (advance 1 (1 + h.size.toNat)
        { emit h.name (.bs (payByte s s.cur.toNat) t.subs) t with comp := none }) := by
  obtain ⟨hl, hrsv⟩ := plain_iff.mp hplain
  exact guard_passes (by simp [hl, hrsv]) (bind_of_cont (need_of_room hroom) rfl)

/-! ### BITC (R144) -/

/-- REC_VALID cleared, which BITC does first (R282). -/
def bitcBegin (s : State) : State := { s with status := s.status.recCleared }

theorem dromWord_recCleared (s : State) (i : Nat) :
    State.dromWord { s with status := s.status.recCleared } i = s.dromWord i := rfl

section
variable {s : State}

theorem bitcBody_past_rom (hword : s.dromWord s.op.opPtr.toNat = none) :
    bitcBody s = .stop (raise .dictionary 3 0 s.op.opPtr.toNat (bitcBegin s)) := by
  simp only [bitcBody, dromWord_recCleared, hword]
  rfl

theorem bitcBody_of_word {w : Word} (hword : s.dromWord s.op.opPtr.toNat = some w) :
    bitcBody s =
      if wordTag w = 2#4 then bitcHead (wordHead w) (bitcBegin s)
      else .stop (raise .dictionary 2 (wordName w) s.op.opPtr.toNat (bitcBegin s)) := by
  simp only [bitcBody, dromWord_recCleared, hword]
  rfl

/-- A word that is no plain BS word raises sub 2 with its name, by its tag or by its fields. -/
theorem bitcBody_of_not_plain {w : Word} (hword : s.dromWord s.op.opPtr.toNat = some w)
    (hshape : ∀ h : Head, decodeDesc w = .bs h → h.plain = false) :
    bitcBody s = .stop (raise .dictionary 2 (wordName w) s.op.opPtr.toNat (bitcBegin s)) := by
  rw [bitcBody_of_word hword]
  by_cases htag : wordTag w = 2#4
  · rw [if_pos htag]
    refine if_pos ?_
    have hplain := hshape _ (decodeDesc_eq_bs_iff.mpr ⟨htag, rfl⟩)
    by_contra hfields
    obtain ⟨hl, hrsv⟩ := not_or.mp hfields
    exact absurd (plain_iff.mpr ⟨not_ne_iff.mp hl, not_ne_iff.mp hrsv⟩) (ne_true_of_eq_false hplain)
  · exact if_neg htag

/-- On a plain BS word only the composite is left to decide. -/
theorem bitcBody_of_plain {h : Head} (hword : (s.dromWord s.op.opPtr.toNat).map decodeDesc = some (.bs h))
    (hplain : h.plain = true) :
    bitcBody s
      = (composite s.op.opByte s.op.opPtr.toNat h.size.toNat (bitcBegin s)).bind fun t =>
        .cont { t with
          recs := [⟨t.op.opPtr, h.name, .bs t.op.opByte t.subs⟩]
          res := { t.res with recCnt := 1#16, rem := 0#16 }
          status := t.status.recSet
          comp := none } := by
  obtain ⟨w, hw, hdec⟩ := Option.map_eq_some_iff.mp hword
  obtain ⟨htag, rfl⟩ := decodeDesc_eq_bs_iff.mp hdec
  obtain ⟨hl, hrsv⟩ := plain_iff.mp hplain
  rw [bitcBody_of_word hw, if_pos htag]
  exact guard_passes (by simp [hl, hrsv]) rfl

theorem bitcBody_of_ranges {h : Head} {rs : List RangeFields}
    (hword : (s.dromWord s.op.opPtr.toNat).map decodeDesc = some (.bs h)) (hplain : h.plain = true)
    (hlen : rs.length = h.size.toNat) (hranges : RangesAt s s.op.opPtr.toNat rs) :
    bitcBody s = .cont { s with
      recs := [⟨s.op.opPtr, h.name, .bs s.op.opByte (rs.map (subOf s.op.opByte))⟩]
      res := { s.res with recCnt := 1#16, rem := 0#16 }
      status := s.status.recSet
      comp := none } := by
  rw [bitcBody_of_plain hword hplain, composite_of_ranges (s := bitcBegin s) hlen hranges]
  rfl

theorem bitcBody_of_fails {h : Head} {rs : List RangeFields} {e : ErrRegs}
    (hword : (s.dromWord s.op.opPtr.toNat).map decodeDesc = some (.bs h)) (hplain : h.plain = true)
    (hfails : RangeFails s s.op.opPtr.toNat h.size.toNat rs e) :
    e.code = 6
      ∧ bitcBody s = .stop (raise .dictionary e.sub e.field (s.op.opPtr.toNat + 1 + rs.length) (bitcBegin s)) := by
  obtain ⟨hcode, hcomposite⟩ := composite_of_fails (s := bitcBegin s) hfails s.op.opByte
  exact ⟨hcode, by rw [bitcBody_of_plain hword hplain, hcomposite, bind_stop]⟩

/-- How every failed BITC ends: REC, REC_CNT and REM are left open, REC_VALID is 0 (R144, R297). -/
theorem exec_bitc_of_raise (hrest : s.AtRest) {sub : Byte} {field : Half} {off : Nat}
    (hbody : bitcBody (issueBegin s) = .stop (raise .dictionary sub field off (bitcBegin (issueBegin s)))) :
    ∃ o rc rm r d, OffsetOf o off ∧ exec .bitc s = .next
      { s with
        status := { failed s.status with recValid := false }
        err := ⟨6, sub, field, o⟩
        recs := r
        res := { s.res with recCnt := rc, rem := rm }
        draws := d } := by
  obtain ⟨-, hpar, hwalk, hcomp⟩ := hrest
  obtain ⟨o, d, hoff, hraise⟩ := exists_raise_eq_raised .dictionary sub field off (bitcBegin (issueBegin s))
  rw [hraise, raised_of_rest (s := bitcBegin (issueBegin s)) hpar hwalk hcomp] at hbody
  exact ⟨o, _, _, _, _, hoff, congrArg Host.Outcome.next (issue_of_stop hbody)⟩

end
end Sys2Proof.Machine

open Sys2Proof Sys2Proof.Machine Sys2Proof.Spec

/-- Settles O6: a turn is the descriptor's body, which is what exec of a DROM word is, and the walk goes on as the
turn's ISM says. -/
theorem walkRunsDescriptor : Obligations.WalkRunsDescriptor := by
  intro s
  refine ⟨fun w hw => ⟨?_, fun n t => ⟨fun hturn hism => ?_, fun hturn hism => ?_, fun hturn => ?_⟩⟩,
    fun i => List.getElem?_eq_none_iff, fun hpast => ?_⟩
  · rw [walkTurn_of_word hw]
    exact exec_descriptor (decodeDesc_not_command w) _
  · exact bind_of_cont hturn (by rw [hism])
  · exact bind_of_cont hturn (by rw [hism])
  · rw [walk, hturn, bind_stop]
  · have hturn := walkTurn_past hpast
    obtain ⟨off, d, hoff, hraise⟩ := exists_raise_eq_raised .dictionary 3 0 s.dpIndex s
    rw [hraise] at hturn
    refine ⟨off, d, _, rfl, fun hdp => eq_of_offsetOf_toNat ?_, hturn, fun n => ?_⟩
    · simpa [State.dpIndex, hdp] using hoff
    · rw [walk, hturn, bind_stop]
      rfl

/-- Settles O35, along the checks of the pseudocode: the head word's index, its shape, its range words in order. -/
theorem bitcResult : Obligations.BitcResult := by
  intro s
  refine ⟨fun h rs hword hplain hlen hranges => ?_, fun hrest hpast => ?_, fun hrest w hword hshape => ?_,
    fun hrest h rs e hword hplain hfails => ?_⟩
  · have hbody := bitcBody_of_ranges (s := issueBegin s) hword hplain hlen hranges
    exact congrArg Host.Outcome.next (issue_of_cont hbody)
  · have hbody := bitcBody_past_rom (s := issueBegin s) hpast
    obtain ⟨o, rc, rm, r, d, hoff, hexec⟩ := exec_bitc_of_raise hrest hbody
    obtain rfl := eq_of_offsetOf_toNat hoff
    exact ⟨rc, rm, r, d, hexec⟩
  · have hbody := bitcBody_of_not_plain (s := issueBegin s) hword hshape
    obtain ⟨o, rc, rm, r, d, hoff, hexec⟩ := exec_bitc_of_raise hrest hbody
    obtain rfl := eq_of_offsetOf_toNat hoff
    rw [wordName_eq_ofNat] at hexec
    exact ⟨rc, rm, r, d, hexec⟩
  · obtain ⟨hcode, hbody⟩ := bitcBody_of_fails (s := issueBegin s) hword hplain hfails
    obtain ⟨o, rc, rm, r, d, hoff, hexec⟩ := exec_bitc_of_raise hrest hbody
    rw [← hcode] at hexec
    exact ⟨o, rc, rm, r, d, hoff, hexec⟩

/-- Settles O43: the composite decides, and what BS appends and advances are the fields of the statement. -/
theorem bitCompositeField : Obligations.BitCompositeField := by
  intro s h rs hplain hpast hroom
  have hexec := exec_descriptor (i := .bs h) (not_command_of_word rfl) s
  rw [show descriptor (.bs h) s = bsBody h s from rfl, bsBody_of_room hplain hroom] at hexec
  refine ⟨fun hlen hranges => ?_, fun e hfails => ?_⟩
  · rw [composite_of_ranges hlen hranges, bind_cont] at hexec
    have hfit := dpIndex_add_of_ranges hpast hranges
    rw [hlen] at hfit
    exact ⟨_, hexec, advance_advanced _ hfit, advance_eq ..⟩
  · obtain ⟨hcode, hcomposite⟩ := composite_of_fails hfails (payByte s s.cur.toNat)
    obtain ⟨off, d, hoff, hraise⟩ :=
      exists_raise_eq_raised .dictionary e.sub e.field (s.dpIndex + 1 + rs.length) s
    rw [hcomposite, bind_stop, state_stop, hraise] at hexec
    rw [hcode]
    exact ⟨off, d, hoff, hexec⟩
end

section
/-! SUPPORT. The fields of a descriptor list, BIN to CONTENT, as one: which checks a head word passes, which bytes the
field needs, and what it makes of them. -/

namespace Sys2Proof.Machine

open Sys2Proof.Spec

/-! ### Fields (R164, R168 to R177) -/

/-- The head word of a descriptor that decodes bytes into an entry. -/
def fieldHead : Instr → Option Head
  | .bin h | .bs h | .ascii h | .bcdDate h | .bcd h | .content h => some h
  | _ => none

/-- The bytes that a field needs (R164). -/
def State.fieldBytes (s : State) : Instr → Nat
  | .bin h | .ascii h => h.size.toNat
  | .bs _ => 1
  | .bcdDate _ => 3
  | .bcd _ => 2
  | .content _ => s.lenVal
  | _ => 0

/-- The length that the field needs is known: CONTENT takes it from a field before it (R176). -/
def State.lengthKnown (s : State) : Instr → Bool
  | .content _ => s.lenVld
  | _ => true

/-- What a field makes of its payload bytes, once they are known to be there. -/
def decodeField (i : Instr) (bs : List Byte) (s : State) : Stage :=
  match i with
  | .bin h => .cont (advance h.size.toNat 1 (latchLength h (le bs) (emit h.name (.bin h.size (le bs)) s)))
  | .bs h =>
    (composite (bs.getD 0 0) s.dpIndex h.size.toNat s).bind fun t =>
      .cont (advance 1 (1 + h.size.toNat) { emit h.name (.bs (bs.getD 0 0) t.subs) t with comp := none })
  | .ascii h => .cont (advance h.size.toNat 1 (emit h.name (.ascii (bs.map s.glyph)) s))
  | .bcdDate h =>
    .cont (advance 3 1 (emit h.name
      (.bcdDate bcdCentury (hiNibble (bs.getD 0 0)) (loNibble (bs.getD 0 0)) (hiNibble (bs.getD 1 0))
        (loNibble (bs.getD 1 0)) (hiNibble (bs.getD 2 0)) (loNibble (bs.getD 2 0))) s))
  | .bcd h =>
    .cont (advance 2 1 (emit h.name
      (.bcd (hiNibble (bs.getD 0 0)) (loNibble (bs.getD 0 0)) (hiNibble (bs.getD 1 0)) (loNibble (bs.getD 1 0))) s))
  | .content h => .cont (advance s.lenVal 1 (emit h.name (.content bs) s))
  | _ => .cont s

section
variable {i : Instr} {h : Head} {s : State}

theorem not_command_of_field (hi : fieldHead i = some h) : ¬ IsCommand i := by
  cases i
  case bin | bs | ascii | bcdDate | bcd | content => exact not_command_of_word rfl
  all_goals cases hi

/-- What follows `need` runs in the state it checked (R164). -/
theorem need_bind (name : Half) (n : Nat) (s : State) (f : State → Stage) :
    (need name n s).bind f = (need name n s).bind fun _ => f s := by
  rcases need_cases name n s with ⟨-, hneed⟩ | ⟨-, hneed⟩
  all_goals rw [hneed]; rfl

/-- A field whose head word is well formed checks its bytes and decodes them. -/
theorem descriptor_of_field_wf (hi : fieldHead i = some h) (hwf : i.wf = true) (hlen : s.lengthKnown i = true) :
    descriptor i s = (need h.name (s.fieldBytes i) s).bind fun _ =>
      decodeField i (s.payRange s.cur.toNat (s.fieldBytes i)) s := by
  cases i
  case bin =>
    cases hi
    exact guard_passes (not_not_intro (beq_iff_eq.mp hwf)) (need_bind ..)
  case bs | ascii =>
    cases hi
    obtain ⟨hl, hrsv⟩ := plain_iff.mp hwf
    exact guard_passes (by simp [hl, hrsv]) (need_bind ..)
  case bcdDate | bcd =>
    cases hi
    obtain ⟨hplain, hsize⟩ := Bool.and_eq_true_iff.mp hwf
    obtain ⟨hl, hrsv⟩ := plain_iff.mp hplain
    exact guard_passes (by simp [hl, hrsv, beq_iff_eq.mp hsize]) (need_bind ..)
  case content =>
    cases hi
    obtain ⟨hplain, hsize⟩ := Bool.and_eq_true_iff.mp hwf
    have hvld : ¬ s.lenVld = false := ne_false_of_eq_true hlen
    exact guard_passes (content_guard hplain (beq_iff_eq.mp hsize)) (guard_passes hvld (need_bind ..))
  all_goals cases hi

/-- Every field in full: the checks of its head word, of the length field and of its bytes, in their order (R177). -/
theorem descriptor_of_field (hi : fieldHead i = some h) (s : State) :
    descriptor i s =
      if i.wf = false then malformed h s
      else if s.lengthKnown i = false then raiseStage .missingLengthField 0 h.name s.dpIndex s
      else (need h.name (s.fieldBytes i) s).bind fun _ =>
        decodeField i (s.payRange s.cur.toNat (s.fieldBytes i)) s := by
  by_cases hwf : i.wf = false
  · rw [if_pos hwf]
    refine descriptor_of_malformed hwf ?_ s
    cases i <;> cases hi <;> simp
  rw [if_neg hwf]
  by_cases hlen : s.lengthKnown i = false
  · rw [if_pos hlen]
    cases i
    case content =>
      cases hi
      obtain ⟨hplain, hsize⟩ := Bool.and_eq_true_iff.mp (Bool.of_not_eq_false hwf)
      exact contentBody_without_length hplain (beq_iff_eq.mp hsize) hlen
    all_goals exact Bool.noConfusion hlen
  · rw [if_neg hlen]
    exact descriptor_of_field_wf hi (Bool.of_not_eq_false hwf) (Bool.of_not_eq_false hlen)

/-- A well-formed field with its bytes left decodes them (R164). -/
theorem descriptor_of_room (hi : fieldHead i = some h) (hwf : i.wf = true) (hlen : s.lengthKnown i = true)
    (hroom : s.cur.toNat + s.fieldBytes i ≤ s.res.pEnd.toNat) :
    descriptor i s = decodeField i (payBytes s s.cur.toNat (s.fieldBytes i)) s := by
  rw [descriptor_of_field_wf hi hwf hlen, need_of_room hroom, bind_cont, payRange_eq_payBytes]

/-- With too few bytes left it raises at CUR (R164, R177). -/
theorem descriptor_without_room (hi : fieldHead i = some h) (hwf : i.wf = true) (hlen : s.lengthKnown i = true)
    (hroom : s.res.pEnd.toNat < s.cur.toNat + s.fieldBytes i) :
    descriptor i s = .stop (raised 3 0 h.name s.cur s) := by
  have hneed : need h.name (s.fieldBytes i) s = .stop (raise .insufficientData 0 h.name s.cur.toNat s) :=
    if_pos hroom
  rw [descriptor_of_field_wf hi hwf hlen, hneed, bind_stop, raise_eq_raised s.cur.isLt, BitVec.ofNat_toNat,
    BitVec.setWidth_eq]
  rfl

theorem exec_field_of_room (hi : fieldHead i = some h) (hwf : i.wf = true) (hlen : s.lengthKnown i = true)
    (hroom : s.cur.toNat + s.fieldBytes i ≤ s.res.pEnd.toNat) :
    exec i s = .next (decodeField i (payBytes s s.cur.toNat (s.fieldBytes i)) s).state := by
  rw [exec_descriptor (not_command_of_field hi), descriptor_of_room hi hwf hlen hroom]

theorem exec_field_without_room (hi : fieldHead i = some h) (hwf : i.wf = true) (hlen : s.lengthKnown i = true)
    (hroom : s.res.pEnd.toNat < s.cur.toNat + s.fieldBytes i) : exec i s = .next (raised 3 0 h.name s.cur s) := by
  rw [exec_descriptor (not_command_of_field hi), descriptor_without_room hi hwf hlen hroom, state_stop]

end

/-! ### Nibbles (R174, R175) -/

theorem hiNibble_eq_ofNat (b : Byte) : hiNibble b = BitVec.ofNat 4 (b.toNat / 16 ^ 1) := extract_eq_ofNat 4 4 b

theorem loNibble_eq_ofNat (b : Byte) : loNibble b = BitVec.ofNat 4 (b.toNat / 16 ^ 0) := extract_eq_ofNat 0 4 b

end Sys2Proof.Machine

open Sys2Proof Sys2Proof.Machine Sys2Proof.Spec

/-- Settles O44: the head word is plain and the bytes are there, so the characters are appended. -/
theorem asciiField : Obligations.AsciiField := by
  intro s h hplain hpast hroom
  have hexec := exec_field_of_room (i := .ascii h) (s := s) rfl hplain rfl hroom
  exact ⟨_, hexec, advance_advanced _ (dpIndex_lt hpast), advance_eq ..⟩

/-- Settles O45: the nibbles are the digits of the three bytes in base 16. -/
theorem bcdDateField : Obligations.BcdDateField := by
  intro s h hplain hsize hpast hroom digit
  have hwf : (Instr.bcdDate h).wf = true := Bool.and_eq_true_iff.mpr ⟨hplain, beq_iff_eq.mpr hsize⟩
  have hexec := exec_field_of_room (i := .bcdDate h) (s := s) rfl hwf rfl hroom
  simp only [decodeField, hiNibble_eq_ofNat, loNibble_eq_ofNat] at hexec
  exact ⟨_, hexec, advance_advanced _ (dpIndex_lt hpast), advance_eq ..⟩

/-- Settles O46: the nibbles are the digits of the two bytes in base 16. -/
theorem bcdField : Obligations.BcdField := by
  intro s h hplain hsize hpast hroom digit
  have hwf : (Instr.bcd h).wf = true := Bool.and_eq_true_iff.mpr ⟨hplain, beq_iff_eq.mpr hsize⟩
  have hexec := exec_field_of_room (i := .bcd h) (s := s) rfl hwf rfl hroom
  simp only [decodeField, hiNibble_eq_ofNat, loNibble_eq_ofNat] at hexec
  exact ⟨_, hexec, advance_advanced _ (dpIndex_lt hpast), advance_eq ..⟩

/-- Settles O51: the disjunction lists the fields with the bytes that each needs. -/
theorem insufficientDataWords : Obligations.InsufficientDataWords := by
  intro s h i n hwf hi hroom
  rcases hi with ⟨rfl, rfl⟩ | ⟨rfl, rfl⟩ | ⟨rfl, rfl⟩ | ⟨rfl, rfl⟩ | ⟨rfl, rfl⟩ | ⟨rfl, hvld, rfl⟩
  case inr.inr.inr.inr.inr => exact exec_field_without_room rfl hwf hvld hroom
  all_goals exact exec_field_without_room rfl hwf rfl hroom
end

section
/-! SUPPORT. A whole interpretation by its last turn, which alone decides how it ends, and the errors it can raise. -/

namespace Sys2Proof.Machine

open Sys2Proof.Spec

/-! ### The last turn (R162) -/

/-- Where the walk ends: between two turns, before a turn after which it fetches no more. -/
structure LastTurn (s v : State) : Prop where
  walking : Walking s v
  ism : v.ism = .fetch
  ends : ∀ t, walkTurn v = .cont t → t.ism ≠ .fetch

/-- With fuel for the words left, the walk ends as its last turn does. -/
theorem walk_eq_lastTurn {s : State} (fuel : Nat) {u : State} (h : Walking s u) (hfetch : u.ism = .fetch)
    (hpos : 0 < fuel) (hfuel : u.dromSize < u.dpIndex + fuel) :
    ∃ v, LastTurn s v ∧ walk fuel u = walkTurn v := by
  induction fuel generalizing u with
  | zero => exact absurd hpos (Nat.lt_irrefl 0)
  | succ n ih =>
    have hmeets := walkTurn_meets h
    cases hturn : walkTurn u with
    | stop t =>
      have hends : ∀ t, walkTurn u = .cont t → t.ism ≠ .fetch := fun _ ht =>
        Stage.noConfusion (hturn.symm.trans ht)
      exact ⟨u, ⟨h, hfetch, hends⟩, by rw [walk, hturn, bind_stop]⟩
    | cont t =>
      rw [hturn] at hmeets
      rcases hmeets with ⟨hism, hwalk, hlt, hle⟩ | hdone
      · have hsize : t.dromSize = u.dromSize := dromSize_of_besideWalk (hwalk.beside.trans h.beside.symm)
        obtain ⟨v, hv, hrun⟩ := ih hwalk hism (by omega) (by omega)
        exact ⟨v, hv, (bind_of_cont hturn (by rw [hism])).trans hrun⟩
      · have hends : ∀ t, walkTurn u = .cont t → t.ism ≠ .fetch := fun t' ht hism =>
          Ism.noConfusion (hdone.ism.symm.trans ((Stage.cont.inj (hturn.symm.trans ht)) ▸ hism))
        exact ⟨u, ⟨h, hfetch, hends⟩, (bind_of_cont hturn (by rw [hdone.ism])).trans hturn.symm⟩

theorem walking_interpretBegin (base : Half) (s : State) : Walking s (interpretBegin base s) :=
  ⟨rfl, rfl, lengthOk_of_zero rfl, fun h => Bool.noConfusion h, rfl, Nat.zero_le _⟩

theorem interpret_eq_lastTurn (base : Half) (s : State) :
    ∃ v, LastTurn s v ∧ interpret base s = walkTurn v := by
  refine walk_eq_lastTurn (s.dromSize + 1) (walking_interpretBegin base s) rfl (Nat.succ_pos _) ?_
  show s.dromSize < _
  omega

/-! ### How a turn ends (R166, R178, R180) -/

/-- After END: I_DONE, REC_VALID set, and no new error. -/
structure EndReached (s t : State) : Prop where
  ism : t.ism = .done
  recValid : t.status.recValid = true
  err : t.err = s.err
  errFlag : t.status.err = s.status.err

/-- A descriptor leaves the walk fetching or ends it by END; where it raises, ISM is as it was. -/
theorem descriptor_ends {i : Instr} (hi : ¬ IsCommand i) {s : State} (hcomp : s.comp = none) :
    (descriptor i s).Meets (fun t => t.ism = .fetch ∨ EndReached s t) (fun u => u.ism = s.ism) := by
  by_cases hend : ∃ h, i = .endList h
  · obtain ⟨h, rfl⟩ := hend
    exact (endListBody_meets h s).mono (fun t ht => .inr (ht ▸ ⟨rfl, rfl, rfl, rfl⟩)) fun u hu => by rw [hu]
  by_cases hrange : ∃ r, i = .range r
  · obtain ⟨r, rfl⟩ := hrange
    refine (rangeBody_meets r s).mono (fun t ht => ?_) fun u hu => by rw [hu]
    obtain ⟨-, c, -, hc, -⟩ := ht
    exact absurd (hcomp.symm.trans hc) (Option.some_ne_none c).symm
  · exact (descriptor_decoded hi (fun h e => hend ⟨h, e⟩) (fun r e => hrange ⟨r, e⟩) s).mono
      (fun t ht => .inl ht.ism) fun u hu => (view_eq State.ism hu :)

/-- A turn that begins with a fetch; where it raises, the interpreter is running. -/
theorem walkTurn_ends {s : State} (hfetch : s.ism = .fetch) (hcomp : s.comp = none) :
    (walkTurn s).Meets (fun t => t.ism = .fetch ∨ EndReached s t) (fun u => u.walking = true) := by
  unfold walkTurn
  split
  · exact .raiseStage (by rw [State.walking, hfetch])
  · next w _ =>
    refine (descriptor_ends (decodeDesc_not_command w) (s := { s with ism := .exec }) hcomp).mono
      (fun t ht => ht.imp_right fun ⟨hism, hrec, herr, hflag⟩ => ⟨hism, hrec, herr, hflag⟩) fun u hu => ?_
    rw [State.walking, hu]

/-! ### The errors of the interpreter (R164 to R177) -/

/-- An error of the interpreter: InsufficientData, MissingLengthField, UnknownFieldType or Dictionary (R290). -/
def InterpCode (code : Byte) : Prop := 3 ≤ code.toNat ∧ code.toNat ≤ 6

/-- A stage that raises no error but the interpreter's. -/
def Stage.InterpErrors : Stage → Prop
  | .cont _ => True
  | .stop t => InterpCode t.err.code

section
variable {s : State} {x : ErrName} {sub : Byte} {field : Half} {off : Nat} {y : Stage} {f : State → Stage}

theorem Stage.InterpErrors.raiseStage (hx : InterpCode x.code) : (raiseStage x sub field off s).InterpErrors := hx

theorem Stage.InterpErrors.guard {c : Prop} [Decidable c] (hx : InterpCode x.code) (hy : y.InterpErrors) :
    (if c then Machine.raiseStage x sub field off s else y).InterpErrors := by
  split
  · exact hx
  · exact hy

theorem Stage.InterpErrors.bind (hy : y.InterpErrors) (hf : ∀ t, (f t).InterpErrors) : (y.bind f).InterpErrors := by
  cases y with
  | cont t => exact hf t
  | stop t => exact hy

theorem interpCode_insufficientData : InterpCode ErrName.insufficientData.code := ⟨by decide, by decide⟩
theorem interpCode_missingLengthField : InterpCode ErrName.missingLengthField.code := ⟨by decide, by decide⟩
theorem interpCode_unknownFieldType : InterpCode ErrName.unknownFieldType.code := ⟨by decide, by decide⟩
theorem interpCode_dictionary : InterpCode ErrName.dictionary.code := ⟨by decide, by decide⟩

theorem rangeBody_interpErrors (r : RangeFields) (s : State) : (rangeBody r s).InterpErrors := by
  unfold rangeBody
  split
  · exact .guard interpCode_dictionary (.guard interpCode_dictionary trivial)
  · exact interpCode_dictionary

theorem rangeFetch_interpErrors (s : State) : (rangeFetch s).InterpErrors := by
  unfold rangeFetch
  split
  · trivial
  · split
    · exact interpCode_dictionary
    · split
      · exact rangeBody_interpErrors _ s
      · exact interpCode_dictionary

theorem rangeWords_interpErrors (k : Nat) (s : State) : (rangeWords k s).InterpErrors := by
  induction k generalizing s with
  | zero => trivial
  | succ k ih => exact (rangeFetch_interpErrors s).bind ih

/-- Of the decoding proper only a bit-composite can raise, at a range word (R146). -/
theorem decodeField_interpErrors (i : Instr) (bs : List Byte) (s : State) : (decodeField i bs s).InterpErrors := by
  cases i
  case bs h => exact (rangeWords_interpErrors h.size.toNat _).bind fun _ => trivial
  all_goals trivial

theorem descriptor_interpErrors {i : Instr} (hi : ¬ IsCommand i) (s : State) : (descriptor i s).InterpErrors := by
  cases hfield : fieldHead i with
  | some h =>
    rw [descriptor_of_field hfield]
    refine .guard interpCode_dictionary (.guard interpCode_missingLengthField ?_)
    exact Stage.InterpErrors.bind (.guard interpCode_insufficientData trivial) fun _ => decodeField_interpErrors i _ s
  | none =>
    cases i
    case endList => exact .guard interpCode_dictionary trivial
    case range r => exact rangeBody_interpErrors r s
    case unknownTag => exact interpCode_unknownFieldType
    case bin | bs | ascii | bcdDate | bcd | content => cases hfield
    all_goals exact absurd ⟨_, rfl⟩ hi

theorem walkTurn_interpErrors (s : State) : (walkTurn s).InterpErrors := by
  unfold walkTurn
  split
  · exact interpCode_dictionary
  · exact descriptor_interpErrors (decodeDesc_not_command _) _

end
end Sys2Proof.Machine

open Sys2Proof Sys2Proof.Machine Sys2Proof.Spec

/-- Settles O38: the last turn is END's, or it raises while the interpreter is running. -/
theorem interpretationAlwaysEnds : Obligations.InterpretationAlwaysEnds := by
  intro base s
  obtain ⟨v, ⟨hwalking, hfetch, hends⟩, hrun⟩ := interpret_eq_lastTurn base s
  have hturn := walkTurn_ends hfetch hwalking.comp
  have hcode := walkTurn_interpErrors v
  rw [hrun]
  cases hlast : walkTurn v with
  | cont t =>
    rw [hlast] at hturn
    obtain ⟨hism, hrec, herr, hflag⟩ := hturn.resolve_left (hends t hlast)
    exact .inl ⟨t, rfl, hism, hrec, herr.trans (view_eq State.err hwalking.beside),
      hflag.trans (view_eq (fun u => u.status.err) hwalking.beside)⟩
  | stop t =>
    rw [hlast] at hturn hcode
    obtain ⟨x, sub, field, off, u, hu, rfl⟩ := hturn
    exact .inr ⟨_, rfl, by rw [raise_ism, hu]; rfl, rfl, hcode⟩
end

section
/-! SUPPORT. Two runs of an interpretation: BUF exchanged for contents that agree with it on the payload's range. -/

namespace Sys2Proof.Machine

open Sys2Proof.Spec

/-! ### CUR only advances (R34, R162) -/

/-- Decoding moves CUR past the bytes of the field. -/
theorem decodeField_cur {i : Instr} {h : Head} (hi : fieldHead i = some h) (bs : List Byte) (s : State) :
    (decodeField i bs s).Meets (fun t => t.cur = s.cur + BitVec.ofNat 16 (s.fieldBytes i)) (fun _ => True) := by
  cases i
  case bin h =>
    rw [decodeField, latchLength_eq]
    rfl
  case bs h =>
    refine ((composite_meets ..).mono (fun _ ht => ht) fun _ _ => trivial).bind fun t ht => ?_
    obtain ⟨hb, -⟩ := ht
    exact congrArg (· + 1#16) (view_eq State.cur hb :)
  case ascii | bcdDate | bcd | content => rfl
  all_goals cases hi

/-- CUR does not wrap: a field's bytes end at P_END at the latest. -/
theorem descriptor_cur_le {i : Instr} (hi : ¬ IsCommand i) (s : State) :
    (descriptor i s).Meets (fun t => s.cur.toNat ≤ t.cur.toNat) (fun _ => True) := by
  cases hfield : fieldHead i with
  | some h =>
    rw [descriptor_of_field hfield]
    refine .guard trivial fun _ => .guard trivial fun _ => ?_
    refine ((need_meets ..).mono (fun _ ht => ht) fun _ _ => trivial).bind ?_
    rintro t ⟨rfl, hroom⟩
    refine (decodeField_cur hfield _ t).mono (fun u hu => ?_) fun _ _ => trivial
    have hend := t.res.pEnd.isLt
    rw [hu, BitVec.toNat_add, BitVec.toNat_ofNat]
    omega
  | none =>
    cases i
    case endList h => exact (endListBody_meets h s).mono (fun t ht => by rw [ht]) fun _ _ => trivial
    case range r =>
      refine (rangeBody_meets r s).mono (fun t ht => ?_) fun _ _ => trivial
      obtain ⟨hb, -⟩ := ht
      rw [show t.cur = s.cur from view_eq State.cur hb]
    case unknownTag => exact .raiseStage trivial
    case bin | bs | ascii | bcdDate | bcd | content => cases hfield
    all_goals exact absurd ⟨_, rfl⟩ hi

theorem walkTurn_cur_le (s : State) :
    (walkTurn s).Meets (fun t => s.cur.toNat ≤ t.cur.toNat) (fun _ => True) := by
  unfold walkTurn
  split
  · exact .raiseStage trivial
  · exact descriptor_cur_le (decodeDesc_not_command _) { s with ism := .exec }

/-! ### The walk reads from CUR on (R164, R182) -/

/-- m reads as BUF does from an index on, up to P_END. -/
def AgreesFrom (m : Memory) (start : Nat) (s : State) : Prop :=
  ∀ a, start ≤ a → a < s.res.pEnd.toNat → (s.withBuf m).bufByte a = s.bufByte a

section
variable {m : Memory} {s : State} {start : Nat}

theorem AgreesFrom.payRange {a n : Nat} (h : AgreesFrom m start s) (ha : start ≤ a) (hn : a + n ≤ s.res.pEnd.toNat) :
    (s.withBuf m).payRange a n = s.payRange a n := by
  rw [payRange_eq, payRange_eq, bufRange_congr fun i hi hlt => h i (by omega) (by omega)]
  rfl

/-- The bytes once read, a field reads no more of BUF. -/
theorem decodeField_blind (i : Instr) (bs : List Byte) : Blind m (decodeField i bs) s := by
  cases i
  case bin h => exact latch_advance_withBuf rfl
  case bs h =>
    refine Blind.bind (composite_meets (bs.getD 0 0) s.dpIndex h.size.toNat s) (composite_blind _ _ _) fun u _ => ?_
    exact congrArg Stage.cont
      (advance_withBuf (s := { emit h.name (.bs (bs.getD 0 0) u.subs) u with comp := none }) _ _)
  case ascii | bcdDate | bcd | content => exact emit_advance_withBuf rfl
  all_goals rfl

theorem descriptor_blind_from (i : Instr) (ha : AgreesFrom m start s) (hcur : start ≤ s.cur.toNat) :
    Blind m (descriptor i) s := by
  cases hfield : fieldHead i with
  | some h =>
    unfold Blind
    rw [descriptor_of_field hfield, descriptor_of_field hfield]
    refine guard_withBuf Iff.rfl fun _ => guard_withBuf Iff.rfl fun _ => ?_
    rw [show need h.name ((s.withBuf m).fieldBytes i) (s.withBuf m) = (need h.name (s.fieldBytes i) s).withBuf m from
      need_blind ..]
    rcases need_cases h.name (s.fieldBytes i) s with ⟨hroom, hneed⟩ | ⟨-, hneed⟩
    · have hbytes : (s.withBuf m).payRange (s.withBuf m).cur.toNat ((s.withBuf m).fieldBytes i)
          = s.payRange s.cur.toNat (s.fieldBytes i) := ha.payRange hcur hroom
      rw [hneed, hbytes]
      exact decodeField_blind i _
    · rw [hneed]
      rfl
  | none =>
    cases i
    case endList => exact guard_withBuf Iff.rfl fun _ => rfl
    case range r => exact rangeBody_blind r
    case bin | bs | ascii | bcdDate | bcd | content => cases hfield
    all_goals rfl

theorem walkTurn_blind_from (ha : AgreesFrom m start s) (hcur : start ≤ s.cur.toNat) : Blind m walkTurn s := by
  unfold Blind walkTurn
  rw [withBuf_dpIndex, withBuf_dromWord]
  cases s.dromWord s.dpIndex with
  | none => rfl
  | some w => exact descriptor_blind_from (s := { s with ism := .exec }) (decodeDesc w) ha hcur

/-- No turn moves CUR back or P_END at all, so every turn reads inside the range. -/
theorem walk_blind_from (fuel : Nat) (ha : AgreesFrom m start s) (hcur : start ≤ s.cur.toNat) :
    Blind m (walk fuel) s := by
  induction fuel generalizing s with
  | zero => rfl
  | succ n ih =>
    refine Blind.bind ((walkTurn_beside s).and (walkTurn_cur_le s)) (walkTurn_blind_from ha hcur) ?_
    rintro t ⟨hbeside, hle⟩
    have hagree : AgreesFrom m start t := (view_eq (AgreesFrom m start) hbeside).mpr ha
    unfold Blind
    dsimp only
    rw [withBuf_ism]
    cases t.ism with
    | fetch => exact ih hagree (Nat.le_trans hcur hle)
    | _ => rfl

/-- INTERP reads BUF on [OP_START..OP_END) only (R161, R182). -/
theorem interpBody_blind_range (ha : ∀ a, s.op.opStart.toNat ≤ a → a < s.op.opEnd.toNat →
    (s.withBuf m).bufByte a = s.bufByte a) : Blind m interpBody s := by
  refine Blind.bind (bufCheck_meets s) bufCheck_blind ?_
  rintro t ⟨rfl, _⟩
  unfold Blind
  dsimp only
  refine guard_withBuf (s := { t with status := t.status.recCleared }) Iff.rfl fun _ => ?_
  exact walk_blind_from (start := t.op.opStart.toNat)
    (s := interpretBegin t.op.opPtr { t with
      status := t.status.recCleared
      res := { t.res with pStart := t.op.opStart, pEnd := t.op.opEnd, deobf := 0#8 } })
    (t.dromSize + 1) ha (Nat.le_refl _)

end
end Sys2Proof.Machine

open Sys2Proof Sys2Proof.Machine Sys2Proof.Spec

/-- Settles O23: INTERP's pseudocode is blind to BUF outside its range, and so is what its errors leave. -/
theorem interpReadsOnlyItsRange : Obligations.InterpReadsOnlyItsRange := by
  intro s t m ha h
  obtain rfl := Host.Outcome.next.inj h
  exact congrArg Host.Outcome.next (issue_withBuf (interpBody_blind_range (s := issueBegin s) ha) fun _ => rfl)
end

section
/-! SUPPORT. INTERP from its issue to its end: on a bad range, on a list that is only END, and on content behind its
length byte. -/

namespace Sys2Proof.Machine

open Sys2Proof.Spec

/-! ### From the issue to the walk (R161, R282) -/

/-- REC_VALID cleared, which INTERP does first (R282). -/
def interpCleared (s : State) : State := { s with status := s.status.recCleared }

/-- The state in which INTERP begins its interpretation. -/
def interpPayload (s : State) : State :=
  { interpCleared s with res := { s.res with pStart := s.op.opStart, pEnd := s.op.opEnd, deobf := 0#8 } }

theorem rangeBad_iff {o : OpRegs} :
    o.rangeBad = true ↔ o.opEnd.toNat < o.opStart.toNat ∨ o.bufLen.toNat < o.opEnd.toNat := by
  simp [OpRegs.rangeBad]

section
variable {s : State}

theorem interpBody_of_range (h : RangeAllowed s) : interpBody s = interpret s.op.opPtr (interpPayload s) := by
  obtain ⟨horder, hend, hcap⟩ := h
  refine bind_of_cont (bufCheck_of_fits hcap) (guard_passes (mt rangeBad_iff.mp ?_) rfl)
  exact not_or.mpr ⟨Nat.not_lt.mpr horder, Nat.not_lt.mpr hend⟩

theorem interpBody_of_bad_range (hcap : s.op.bufLen.toNat ≤ s.cfg.val.bufCap)
    (hbad : s.op.opEnd.toNat < s.op.opStart.toNat ∨ s.op.bufLen.toNat < s.op.opEnd.toNat) :
    interpBody s = .stop (raised 8 1 0 s.op.opEnd (interpCleared s)) := by
  refine (bind_of_cont (bufCheck_of_fits hcap) (if_pos (rangeBad_iff.mpr hbad))).trans (congrArg Stage.stop ?_)
  rw [raise_eq_raised s.op.opEnd.isLt, BitVec.ofNat_toNat, BitVec.setWidth_eq]
  rfl

end

/-! ### Turns of the walk by what DROM holds (R162) -/

/-- The interpreter runs the word it has fetched (R36). -/
def State.executing (s : State) : State := { s with ism := .exec }

section
variable {s : State} {i : Instr} {h : Head}

theorem dpIndex_eq_dp (hpast : s.dpPast = false) : s.dpIndex = s.dp.toNat := by
  simp [State.dpIndex, hpast]

theorem walkTurn_of_decoded (hword : (s.dromWord s.dpIndex).map decodeDesc = some i) :
    walkTurn s = descriptor i s.executing := by
  obtain ⟨w, hw, rfl⟩ := Option.map_eq_some_iff.mp hword
  exact walkTurn_of_word hw

/-- END ends the walk with REM set (R166, R178). -/
theorem walk_of_end (fuel : Nat) (hword : (s.dromWord s.dpIndex).map decodeDesc = some (.endList Head.zero)) :
    walk (fuel + 1) s = .cont
      { s with
        res := { s.res with rem := s.res.pEnd - s.cur }
        status := s.status.recSet
        ism := .done } :=
  bind_of_cont ((walkTurn_of_decoded hword).trans (endListBody_of_zero rfl _)) rfl

/-- A well-formed field with its bytes left is decoded, and the walk goes on (R162). -/
theorem walk_of_field {t : State} (fuel : Nat) (hword : (s.dromWord s.dpIndex).map decodeDesc = some i)
    (hi : fieldHead i = some h) (hwf : i.wf = true) (hlen : s.lengthKnown i = true)
    (hroom : s.cur.toNat + s.fieldBytes i ≤ s.res.pEnd.toNat)
    (hdecode : decodeField i (payBytes s s.cur.toNat (s.fieldBytes i)) s.executing = .cont t)
    (hism : t.ism = .fetch) : walk (fuel + 1) s = walk fuel t := by
  have hturn : walkTurn s = .cont t :=
    ((walkTurn_of_decoded hword).trans (descriptor_of_room (s := s.executing) hi hwf hlen hroom)).trans hdecode
  exact bind_of_cont hturn (by rw [hism])

/-- A well-formed field without its bytes stops the walk (R164, R177). -/
theorem walk_of_short_field (fuel : Nat) (hword : (s.dromWord s.dpIndex).map decodeDesc = some i)
    (hi : fieldHead i = some h) (hwf : i.wf = true) (hlen : s.lengthKnown i = true)
    (hroom : s.res.pEnd.toNat < s.cur.toNat + s.fieldBytes i) :
    walk (fuel + 1) s = .stop (raised 3 0 h.name s.cur s.executing) := by
  have hturn : walkTurn s = .stop (raised 3 0 h.name s.cur s.executing) :=
    (walkTurn_of_decoded hword).trans (descriptor_without_room (s := s.executing) hi hwf hlen hroom)
  rw [walk, hturn, bind_stop]

theorem add_ofNat (x : Half) (k : Nat) : x + BitVec.ofNat 16 k = BitVec.ofNat 16 (x.toNat + k) := by
  rw [BitVec.ofNat_add, BitVec.ofNat_toNat, BitVec.setWidth_eq]

/-- `advance` over one word that is not the last of the largest DROM (R35, R162). -/
theorem advance_one_word (b : Nat) (hpast : s.dpPast = false) (hdp : s.dp.toNat + 1 < 65536) :
    advance b 1 s = { s with dp := s.dp + 1#16, dpPast := false, cur := s.cur + BitVec.ofNat 16 b, ism := .fetch } := by
  rw [← dpIndex_eq_dp hpast] at hdp
  rw [advance_of_lt s hdp, dpIndex_eq_dp hpast, ← add_ofNat]

end

/-! ### A length byte and its content (R168, R169, R176) -/

/-- The walk behind a length byte n under the name a, at the CONTENT word. -/
def lengthRead (a : Half) (n : Nat) (s : State) : State :=
  { interpretBegin s.op.opPtr (interpPayload s) with
    recs := [⟨s.op.opPtr, a, .bin 1 n⟩]
    res := { (interpPayload s).res with recCnt := 1#16 }
    cur := s.op.opStart + 1#16
    dp := s.op.opPtr + 1#16
    lenVld := true
    lenVal := n }

/-- The walk behind the content of n bytes under the name b, at the END word. -/
def contentRead (a b : Half) (n : Nat) (s : State) : State :=
  { lengthRead a n s with
    recs := [⟨s.op.opPtr, a, .bin 1 n⟩, ⟨s.op.opPtr + 1#16, b, .content (wire s (s.op.opStart.toNat + 1) n)⟩]
    res := { (interpPayload s).res with recCnt := 2#16 }
    cur := s.op.opStart + 1#16 + BitVec.ofNat 16 n
    dp := s.op.opPtr + 1#16 + 1#16 }

/-- INTERP takes the payload as it stands in BUF: DEOBF = 0 (R161). -/
theorem payBytes_eq_wire {s : State} (h : s.res.deobf = 0#8) (a n : Nat) : payBytes s a n = wire s a n := by
  simp only [payBytes, payByte, h, BitVec.sub_zero, wire]

theorem toNat_add_one {x : Half} (h : x.toNat + 1 < 65536) : (x + 1#16).toNat = x.toNat + 1 := by
  rw [BitVec.toNat_add, BitVec.toNat_ofNat]
  omega

/-- The list BIN 1 with L, CONTENT, END at OP_PTR, and a range with a byte for the length. -/
structure LengthPrefixed (s : State) (a b : Half) : Prop where
  length : (s.dromWord s.op.opPtr.toNat).map decodeDesc = some (.bin ⟨1, 0, 1, a⟩)
  content : (s.dromWord (s.op.opPtr.toNat + 1)).map decodeDesc = some (.content ⟨0, 0, 0, b⟩)
  listEnd : (s.dromWord (s.op.opPtr.toNat + 2)).map decodeDesc = some (.endList ⟨0, 0, 0, 0⟩)
  range : RangeAllowed s
  room : s.op.opStart.toNat < s.op.opEnd.toNat

namespace LengthPrefixed
variable {s : State} {a b : Half} {n : Nat}

/-- The list's three words stand inside the DROM. -/
theorem lt_dromSize (h : LengthPrefixed s a b) : s.op.opPtr.toNat + 2 < s.dromSize := by
  obtain ⟨w, hw, -⟩ := Option.map_eq_some_iff.mp h.listEnd
  exact dromWord_lt hw

theorem opPtr_lt (h : LengthPrefixed s a b) : s.op.opPtr.toNat + 2 < 65536 :=
  Nat.lt_of_lt_of_le h.lt_dromSize (dromSize_le s)

theorem opPtr_add_one (h : LengthPrefixed s a b) : (s.op.opPtr + 1#16).toNat = s.op.opPtr.toNat + 1 :=
  toNat_add_one (Nat.lt_of_succ_lt h.opPtr_lt)

theorem opPtr_add_two (h : LengthPrefixed s a b) : (s.op.opPtr + 1#16 + 1#16).toNat = s.op.opPtr.toNat + 2 := by
  rw [toNat_add_one (h.opPtr_add_one.symm ▸ h.opPtr_lt), h.opPtr_add_one]

theorem opStart_add_one (h : LengthPrefixed s a b) : (s.op.opStart + 1#16).toNat = s.op.opStart.toNat + 1 :=
  toNat_add_one (Nat.lt_of_le_of_lt h.room s.op.opEnd.isLt)

/-- The word that the walk finds behind the length byte. -/
theorem word_after_length (h : LengthPrefixed s a b) (n : Nat) :
    ((lengthRead a n s).dromWord (lengthRead a n s).dpIndex).map decodeDesc = some (.content ⟨0, 0, 0, b⟩) := by
  rw [show (lengthRead a n s).dpIndex = s.op.opPtr.toNat + 1 from h.opPtr_add_one]
  exact h.content

theorem word_after_content (h : LengthPrefixed s a b) (n : Nat) :
    ((contentRead a b n s).dromWord (contentRead a b n s).dpIndex).map decodeDesc = some (.endList Head.zero) := by
  rw [show (contentRead a b n s).dpIndex = s.op.opPtr.toNat + 2 from h.opPtr_add_two]
  exact h.listEnd

theorem walk_length (h : LengthPrefixed s a b) (fuel : Nat) :
    walk (fuel + 1) (interpretBegin s.op.opPtr (interpPayload s))
      = walk fuel (lengthRead a (s.bufByte s.op.opStart.toNat).toNat s) := by
  have hbytes : payBytes (interpretBegin s.op.opPtr (interpPayload s)) s.op.opStart.toNat 1
      = [s.bufByte s.op.opStart.toNat] := payBytes_eq_wire rfl ..
  refine walk_of_field (i := .bin ⟨1, 0, 1, a⟩) fuel h.length rfl rfl rfl h.room ?_ rfl
  refine Eq.trans (congrArg (decodeField _ · _) hbytes) ?_
  exact congrArg Stage.cont (advance_one_word 1 rfl (Nat.lt_of_succ_lt h.opPtr_lt))

theorem walk_content (h : LengthPrefixed s a b) (fuel : Nat) (hfits : s.op.opStart.toNat + 1 + n ≤ s.op.opEnd.toNat) :
    walk (fuel + 1) (lengthRead a n s) = walk fuel (contentRead a b n s) := by
  have hcur : (lengthRead a n s).cur.toNat = s.op.opStart.toNat + 1 := h.opStart_add_one
  have hbytes : payBytes (lengthRead a n s) (lengthRead a n s).cur.toNat n
      = wire s (s.op.opStart.toNat + 1) n := by
    rw [hcur]
    exact payBytes_eq_wire rfl ..
  refine walk_of_field (i := .content ⟨0, 0, 0, b⟩) fuel (h.word_after_length n) rfl rfl rfl (hcur ▸ hfits) ?_ rfl
  refine Eq.trans (congrArg (decodeField _ · _) hbytes) ?_
  exact congrArg Stage.cont (advance_one_word n rfl (h.opPtr_add_one.symm ▸ h.opPtr_lt))

theorem walk_short_content (h : LengthPrefixed s a b) (fuel : Nat)
    (hshort : s.op.opEnd.toNat < s.op.opStart.toNat + 1 + n) :
    walk (fuel + 1) (lengthRead a n s)
      = .stop (raised 3 0 b (s.op.opStart + 1#16) (lengthRead a n s).executing) := by
  have hcur : (lengthRead a n s).cur.toNat = s.op.opStart.toNat + 1 := h.opStart_add_one
  exact walk_of_short_field (i := .content ⟨0, 0, 0, b⟩) fuel (h.word_after_length n) rfl rfl rfl (hcur ▸ hshort)

/-- The walk's fuel, with three turns named. -/
theorem exists_fuel (h : LengthPrefixed s a b) : ∃ k, s.dromSize + 1 = k + 1 + 1 + 1 :=
  ⟨s.dromSize - 2, by have := h.lt_dromSize; omega⟩

theorem interpBody_of_fits (h : LengthPrefixed s a b) (hn : n = (s.bufByte s.op.opStart.toNat).toNat)
    (hfits : s.op.opStart.toNat + 1 + n ≤ s.op.opEnd.toNat) :
    interpBody s = .cont
      { contentRead a b n s with
        res := { (contentRead a b n s).res with rem := s.op.opEnd - (s.op.opStart + 1#16 + BitVec.ofNat 16 n) }
        status := s.status.recSet
        ism := .done } := by
  subst hn
  obtain ⟨k, hk⟩ := h.exists_fuel
  have hwalk := (h.walk_length (k + 1 + 1)).trans ((h.walk_content (k + 1) hfits).trans
    (walk_of_end k (h.word_after_content _)))
  rw [← hk] at hwalk
  exact (interpBody_of_range h.range).trans hwalk

theorem interpBody_of_short (h : LengthPrefixed s a b) (hn : n = (s.bufByte s.op.opStart.toNat).toNat)
    (hshort : s.op.opEnd.toNat < s.op.opStart.toNat + 1 + n) :
    interpBody s = .stop (raised 3 0 b (s.op.opStart + 1#16) (lengthRead a n s).executing) := by
  subst hn
  obtain ⟨k, hk⟩ := h.exists_fuel
  have hwalk := (h.walk_length (k + 1 + 1)).trans (h.walk_short_content (k + 1) hshort)
  rw [← hk] at hwalk
  exact (interpBody_of_range h.range).trans hwalk

end LengthPrefixed

theorem sub_eq_ofNat {x y : Half} (h : y.toNat ≤ x.toNat) : x - y = BitVec.ofNat 16 (x.toNat - y.toNat) := by
  rw [← BitVec.toNat_sub_of_le h, BitVec.ofNat_toNat, BitVec.setWidth_eq]

end Sys2Proof.Machine

open Sys2Proof Sys2Proof.Machine Sys2Proof.Spec

/-- Settles O37: the range check comes after REC_VALID is cleared and before the walk begins. -/
theorem interpRangeError : Obligations.InterpRangeError := by
  intro s ⟨_, hpar, hwalk, hcomp⟩ hcap hbad
  have hbody := interpBody_of_bad_range (s := issueBegin s) hcap hbad
  rw [raised_of_rest (s := interpCleared (issueBegin s)) hpar hwalk hcomp] at hbody
  have hend := issue_of_stop (spoil := spoilInterp) hbody
  simp only [issueEnd, spoilInterp, spoilPayload, spoilRecord, State.bump, interpCleared, issueBegin] at hend
  exact ⟨_, _, _, _, _, _, _, congrArg Host.Outcome.next hend⟩

/-- Settles O39: the first turn is END's. -/
theorem interpEmptyList : Obligations.InterpEmptyList := by
  intro s hrange hword
  have hend : (s.dromWord s.op.opPtr.toNat).map decodeDesc = some (.endList Head.zero) := by
    rw [hword]
    decide
  have hwalk := walk_of_end (s := interpretBegin s.op.opPtr (interpPayload (issueBegin s))) s.dromSize hend
  have hbody := (interpBody_of_range (s := issueBegin s) hrange).trans hwalk
  rw [← sub_eq_ofNat hrange.1]
  exact ⟨_, congrArg Host.Outcome.next (issue_of_cont hbody)⟩

/-- Settles O40: three turns if the content fits, two if it does not. -/
theorem interpLengthPrefixed : Obligations.InterpLengthPrefixed := by
  intro s a b hrange hroom hlength hcontent hend start n
  have hlist : LengthPrefixed (issueBegin s) a b := ⟨hlength, hcontent, hend, hrange, hroom⟩
  refine ⟨fun hfits => ?_, fun hrest hshort => ?_⟩
  · have hstart : (s.op.opStart + 1#16).toNat = start + 1 := hlist.opStart_add_one
    have hcur : s.op.opStart + 1#16 + BitVec.ofNat 16 n = BitVec.ofNat 16 (start + 1 + n) := by
      rw [add_ofNat, hstart]
    have hle : (BitVec.ofNat 16 (start + 1 + n)).toNat = start + 1 + n :=
      Nat.mod_eq_of_lt (Nat.lt_of_le_of_lt hfits s.op.opEnd.isLt)
    have hrem : s.op.opEnd - BitVec.ofNat 16 (start + 1 + n)
        = BitVec.ofNat 16 (s.op.opEnd.toNat - (start + 1 + n)) := by
      rw [sub_eq_ofNat (hle.symm ▸ hfits), hle]
    have hptr : s.op.opPtr + 2 = s.op.opPtr + 1#16 + 1#16 := by
      rw [BitVec.add_assoc]
      rfl
    have hbody := hlist.interpBody_of_fits (n := n) rfl hfits
    rw [← hrem, ← hcur, hptr]
    refine congrArg Host.Outcome.next ((issue_of_cont hbody).trans ?_)
    simp only [issueEnd, contentRead, lengthRead, interpretBegin, interpPayload, interpCleared, issueBegin]
    rfl
  · have hexec : exec .interp s = _ :=
      congrArg Host.Outcome.next (issue_of_stop (hlist.interpBody_of_short (n := n) rfl hshort))
    have hfsm := onlyParseMovesFsm .interp s _ hrest (by simp [IsParse]) hexec
    have hseq := (seqCountsSuccessfulEncodes .interp s _ hexec).2 fun henca => Instr.noConfusion henca.1
    exact ⟨_, hexec, rfl, rfl, rfl, rfl, rfl, hfsm, hseq⟩
end

section
/-! SUPPORT. The checks of the PARSE commands before the lookup, in their order: the first that fails is the command's
error. -/

namespace Sys2Proof.Machine

open Sys2Proof.Spec

/-! ### Before the lookup -/

/-- A PARSE command issued in s stands in u, in a stage before the lookup: the flags that it owns are cleared, and what
it does not write stands as before. -/
structure InHead (i : Instr) (s u : State) : Prop where
  beside : u.besideFailed i = s.besideFailed i
  parsing : u.parsing = true
  kept : (u.status, u.ism, u.cur, u.dp) = (s.status.issued.parseCleared, s.ism, s.cur, s.dp)

/-- A stage before the lookup against the rule's list of checks: it goes on with P where the checks of the list up to
`rest` pass, or raises the first error of the list. -/
def Stage.Finds (i : Instr) (s : State) (P : State → Prop) (list rest : Option ErrRegs) : Stage → Prop
  | .cont t => P t ∧ list = rest
  | .stop t => list = some t.err ∧ ∃ x sub field off u, InHead i s u ∧ t = raise x sub field off u

theorem parseBegin_inHead {i : Instr} (hi : IsParse i) (s : State) : InHead i s (parseBegin (issueBegin s)) := by
  refine ⟨?_, rfl, rfl⟩
  rcases hi with rfl | rfl | rfl
  all_goals rfl

section
variable {i : Instr} {s u : State} {P Q : State → Prop} {list mid rest : Option ErrRegs}

theorem Stage.Finds.bind {x : Stage} {f : State → Stage} (hx : x.Finds i s P list mid)
    (hf : ∀ t, P t → (f t).Finds i s Q mid rest) : (x.bind f).Finds i s Q list rest := by
  cases x with
  | cont t =>
    obtain ⟨hP, rfl⟩ := hx
    exact hf t hP
  | stop t => exact hx

/-- A check of the stage is the next check of the list. -/
theorem Stage.Finds.guard {c : Prop} [Decidable c] {x : ErrName} {sub : Byte} {field : Half} {off : Nat} {y : Stage}
    {e : ErrRegs} (hu : InHead i s u) (he : (raise x sub field off u).err = e)
    (hy : ¬ c → y.Finds i s P list rest) :
    (if c then raiseStage x sub field off u else y).Finds i s P (if c then some e else list) rest := by
  split
  · exact ⟨congrArg some he.symm, x, sub, field, off, u, hu, rfl⟩
  · exact hy ‹_›

/-- A field that the frame is too short for, as the rule lists it (R204). -/
theorem Stage.Finds.insufficient {c : Prop} [Decidable c] {f : FieldId} {off : Nat} {y : Stage} (hu : InHead i s u)
    (hoff : off < 65536) (hy : ¬ c → y.Finds i s P list rest) :
    (if c then Machine.insufficient f off u else y).Finds i s P
      (if c then some ⟨2, 4, f.code, BitVec.ofNat 16 off⟩ else list) rest :=
  .guard hu (congrArg (ErrRegs.mk 2 4 f.code) (off16_of_lt hoff)) hy

/-- A list that ends in an error is the error of the stages, and nothing behind them happens (R295). -/
theorem Stage.Finds.bind_eq_stop {x : Stage} {e : ErrRegs} (hx : x.Finds i s P list none) (h : list = some e)
    (f g : State → Stage) :
    ∃ y sub field off u, InHead i s u ∧ (x.bind f).bind g = .stop (raise y sub field off u)
      ∧ (raise y sub field off u).err = e := by
  cases x with
  | cont t => exact nomatch hx.2.symm.trans h
  | stop t =>
    obtain ⟨he, y, sub, field, off, u, hu, rfl⟩ := hx
    exact ⟨y, sub, field, off, u, hu, rfl, Option.some.inj (he.symm.trans h)⟩

/-! ### What the checks read: the frame as it was issued -/

theorem InHead.frame (h : InHead i s u) : u.buf = s.buf ∧ u.op = s.op ∧ u.cfg = s.cfg := by
  have hview := view_eq (fun w => (w.buf, w.op, w.cfg)) h.beside
  simp only [Prod.mk.injEq] at hview
  exact hview

theorem InHead.frameLen (h : InHead i s u) : u.frameLen = frameN s :=
  frameN_of_op h.frame.2.1

theorem InHead.bufByte (h : InHead i s u) (a : Nat) : u.bufByte a = s.bufByte a :=
  bufByte_of_buf h.frame.1 a

theorem InHead.trailerA (h : InHead i s u) : u.trailerA = frameN s - 2 :=
  congrArg (· - 2) h.frameLen

theorem InHead.trailerB (h : InHead i s u) : u.trailerB = frameN s - 3 :=
  trailerB_of_op h.frame.2.1

theorem InHead.addrLenB (h : InHead i s u) : u.addrLenB = addrLen s :=
  addrLenB_of_buf h.frame.1

theorem bufLe16_toNat (s : State) (a : Nat) : (s.bufLe16 a).toNat = leNum s a 2 := by
  rw [bufLe16_eq, BitVec.toNat_ofNat]
  exact Nat.mod_eq_of_lt (leNum_lt s a 2)

theorem InHead.bufLe16 (h : InHead i s u) (a : Nat) : (u.bufLe16 a).toNat = leNum s a 2 := by
  rw [bufLe16_toNat, leNum_of_buf h.frame.1]

/-- The issue check passes and START is the first stage of all three commands (R201, R202). -/
theorem parseStart_finds (hi : IsParse i) (hcap : frameN s ≤ s.cfg.val.bufCap) :
    ((bufCheck (issueBegin s)).bind fun t => startStage (parseBegin t)).Finds i s (InHead i s)
      (if frameN s < 1 then some ⟨2, 4, 1, 0⟩ else if s.bufByte 0 ≠ 0x68#8 then some ⟨2, 1, 1, 0⟩ else rest)
      rest := by
  have hbegin := parseBegin_inHead hi s
  rw [bufCheck_of_fits (s := issueBegin s) hcap, bind_cont]
  exact .insufficient hbegin (by decide) fun _ => .guard hbegin rfl fun _ => ⟨hbegin, rfl⟩

end

/-! ### Protocol A (R206 to R211) -/

/-- Behind Protocol A's control byte, which says whether the addresses are present (R207). -/
structure InFieldsA (s u : State) : Prop extends InHead .parsea s u where
  hasAddrA : u.hasAddrA = decide (HasAddr s)

section
variable {s u : State} {rest : Option ErrRegs}

theorem InFieldsA.funcAtA (h : InFieldsA s u) : u.funcAtA = funcAt s := by
  simp only [State.funcAtA, h.hasAddrA, decide_eq_true_eq]

theorem lengthStageA_finds (h : InHead .parsea s u) :
    (lengthStageA u).Finds .parsea s (InHead .parsea s)
      (if frameN s < 3 then some ⟨2, 4, 2, 1⟩ else if leNum s 1 2 ≠ frameN s then some ⟨2, 3, 2, 1⟩ else rest)
      rest := by
  have hstage : InHead .parsea s (u.enter .length) := ⟨h.beside, rfl, h.kept⟩
  rw [← hstage.frameLen, ← hstage.bufLe16]
  exact .insufficient hstage (by decide) fun _ =>
    .guard ⟨h.beside, rfl, h.kept⟩ rfl fun _ => ⟨⟨h.beside, rfl, h.kept⟩, rfl⟩

theorem controlStageA_finds (h : InHead .parsea s u) :
    (controlStageA u).Finds .parsea s (InFieldsA s)
      (if frameN s - 2 < 4 then some ⟨2, 4, 3, 3⟩ else rest) rest := by
  obtain ⟨_, _, hcfg⟩ := h.frame
  have hstage : InHead .parsea s (u.enter .control) := ⟨h.beside, rfl, h.kept⟩
  rw [← hstage.trailerA]
  refine .insufficient hstage (by decide) fun _ => ⟨⟨⟨h.beside, rfl, h.kept⟩, ?_⟩, rfl⟩
  show decide (controlField (u.bufByte 3) u.cfg.val.layoutA.addr ≠ 0#8) = _
  rw [controlField_eq_ctlField, h.bufByte, hcfg]

theorem addressStageA_finds (h : InFieldsA s u) :
    (addressStageA u).Finds .parsea s (InFieldsA s)
      (if HasAddr s ∧ frameN s - 2 < 10 then some ⟨2, 4, 4, 4⟩
        else if HasAddr s ∧ frameN s - 2 < 16 then some ⟨2, 4, 5, 10⟩ else rest) rest := by
  by_cases haddr : HasAddr s
  · have hstage : InHead .parsea s (u.enter .address) := ⟨h.beside, rfl, h.kept⟩
    have hhas : u.hasAddrA = true := h.hasAddrA.trans (decide_eq_true haddr)
    have hcheck : ∀ k, (HasAddr s ∧ frameN s - 2 < k) ↔ (u.enter .address).trailerA < k := fun k => by
      rw [hstage.trailerA, and_iff_right haddr]
    simp only [hcheck]
    rw [addressStageA, if_pos hhas]
    exact .insufficient hstage (by decide) fun _ =>
      .insufficient ⟨h.beside, rfl, h.kept⟩ (by decide) fun _ => ⟨⟨⟨h.beside, rfl, h.kept⟩, h.hasAddrA⟩, rfl⟩
  · have hhas : u.hasAddrA = false := h.hasAddrA.trans (decide_eq_false haddr)
    rw [addressStageA_of_absent hhas, if_neg (mt And.left haddr), if_neg (mt And.left haddr)]
    exact ⟨h, rfl⟩

theorem funcAtA_le (s : State) : s.funcAtA ≤ 16 := by
  unfold State.funcAtA
  split
  all_goals decide

theorem funcStageA_finds (h : InFieldsA s u) :
    (funcStageA u).Finds .parsea s (InFieldsA s)
      (if frameN s - 2 < funcAt s + 1 then some ⟨2, 4, 9, BitVec.ofNat 16 (funcAt s)⟩ else rest) rest := by
  have hstage : InFieldsA s (u.enter .payload) := ⟨⟨h.beside, rfl, h.kept⟩, h.hasAddrA⟩
  have hle := funcAtA_le (u.enter .payload)
  rw [← hstage.trailerA, ← hstage.funcAtA]
  exact .insufficient hstage.toInHead (by omega) fun _ => ⟨⟨⟨h.beside, rfl, h.kept⟩, h.hasAddrA⟩, rfl⟩

theorem seqStageA_finds (h : InFieldsA s u) :
    (seqStageA u).Finds .parsea s (InFieldsA s)
      (if frameN s - 2 < funcAt s + 2 then some ⟨2, 4, 10, BitVec.ofNat 16 (funcAt s + 1)⟩ else rest) rest := by
  have hle := funcAtA_le u
  rw [← h.trailerA, ← h.funcAtA]
  exact .insufficient h.toInHead (by omega) fun _ => ⟨⟨⟨h.beside, h.parsing, h.kept⟩, h.hasAddrA⟩, rfl⟩

theorem identStageA_finds (h : InFieldsA s u) :
    (identStageA u).Finds .parsea s (InFieldsA s)
      (if frameN s - 2 < funcAt s + 6 then some ⟨2, 4, 11, BitVec.ofNat 16 (funcAt s + 2)⟩ else rest) rest := by
  have hle := funcAtA_le u
  rw [← h.trailerA, ← h.funcAtA]
  exact .insufficient h.toInHead (by omega) fun _ => ⟨⟨⟨h.beside, h.parsing, h.kept⟩, h.hasAddrA⟩, rfl⟩

theorem parseaHead_finds (hcap : frameN s ≤ s.cfg.val.bufCap) :
    ((((((((bufCheck (issueBegin s)).bind fun s => startStage (parseBegin s)).bind lengthStageA).bind
      controlStageA).bind addressStageA).bind funcStageA).bind seqStageA).bind identStageA).Finds .parsea s
      (InFieldsA s) (headFaultA s) none :=
  ((((((parseStart_finds (.inl rfl) hcap).bind fun _ => lengthStageA_finds).bind fun _ => controlStageA_finds).bind
    fun _ => addressStageA_finds).bind fun _ => funcStageA_finds).bind fun _ => seqStageA_finds).bind
    fun _ => identStageA_finds

/-! ### Protocol B (R221 to R227) -/

theorem lengthStageB_finds (h : InHead .parseb s u) :
    (lengthStageB u).Finds .parseb s (InHead .parseb s)
      (if frameN s < 3 then some ⟨2, 4, 2, 1⟩ else if leNum s 1 2 ≠ frameN s - 2 then some ⟨2, 3, 2, 1⟩ else rest)
      rest := by
  have hstage : InHead .parseb s (u.enter .length) := ⟨h.beside, rfl, h.kept⟩
  rw [← hstage.frameLen, ← hstage.bufLe16]
  exact .insufficient hstage (by decide) fun _ =>
    .guard ⟨h.beside, rfl, h.kept⟩ rfl fun _ => ⟨⟨h.beside, rfl, h.kept⟩, rfl⟩

theorem controlStageB_finds (h : InHead .parseb s u) :
    (controlStageB u).Finds .parseb s (InHead .parseb s)
      (if frameN s - 3 < 4 then some ⟨2, 4, 3, 3⟩ else rest) rest := by
  have hstage : InHead .parseb s (u.enter .control) := ⟨h.beside, rfl, h.kept⟩
  rw [← hstage.trailerB]
  exact .insufficient hstage (by decide) fun _ => ⟨⟨h.beside, rfl, h.kept⟩, rfl⟩

theorem addrHeaderStageB_finds (h : InHead .parseb s u) :
    (addrHeaderStageB u).Finds .parseb s (InHead .parseb s)
      (if frameN s - 3 < 5 then some ⟨2, 4, 6, 4⟩ else rest) rest := by
  have hstage : InHead .parseb s (u.enter .address) := ⟨h.beside, rfl, h.kept⟩
  rw [← hstage.trailerB]
  exact .insufficient hstage (by decide) fun _ => ⟨⟨h.beside, rfl, h.kept⟩, rfl⟩

theorem addressStageB_finds (h : InHead .parseb s u) :
    (addressStageB u).Finds .parseb s (InHead .parseb s)
      (if frameN s - 3 < 5 + addrLen s then some ⟨2, 4, 4, 5⟩ else rest) rest := by
  rw [← h.trailerB, ← h.addrLenB]
  exact .insufficient h (by decide) fun _ => ⟨⟨h.beside, h.parsing, h.kept⟩, rfl⟩

theorem trailStageB_finds (h : InHead .parseb s u) :
    (trailStageB u).Finds .parseb s (InHead .parseb s)
      (if frameN s - 3 < 6 + addrLen s then some ⟨2, 4, 7, BitVec.ofNat 16 (5 + addrLen s)⟩ else rest) rest := by
  have hle := addrLenB_le u
  rw [← h.trailerB, ← h.addrLenB]
  exact .insufficient h (by omega) fun _ => ⟨⟨h.beside, h.parsing, h.kept⟩, rfl⟩

/-- The header CRC is compared behind the last check (R227). -/
theorem hcsStageB_finds (h : InHead .parseb s u) :
    (hcsStageB u).Finds .parseb s (fun _ => True)
      (if frameN s - 3 < 8 + addrLen s then some ⟨2, 4, 8, BitVec.ofNat 16 (6 + addrLen s)⟩ else rest) rest := by
  have hstage : InHead .parseb s (u.enter .hcs) := ⟨h.beside, rfl, h.kept⟩
  have hle := addrLenB_le (u.enter .hcs)
  rw [← hstage.trailerB, ← hstage.addrLenB]
  exact .insufficient hstage (by omega) fun _ => ⟨trivial, rfl⟩

theorem parsebHead_finds (hcap : frameN s ≤ s.cfg.val.bufCap) :
    ((((((((bufCheck (issueBegin s)).bind fun s => startStage (parseBegin s)).bind lengthStageB).bind
      controlStageB).bind addrHeaderStageB).bind addressStageB).bind trailStageB).bind hcsStageB).Finds .parseb s
      (fun _ => True) (headFaultB s) none :=
  ((((((parseStart_finds (.inr (.inl rfl)) hcap).bind fun _ => lengthStageB_finds).bind
    fun _ => controlStageB_finds).bind fun _ => addrHeaderStageB_finds).bind fun _ => addressStageB_finds).bind
    fun _ => trailStageB_finds).bind fun _ => hcsStageB_finds

/-! ### Protocol C (R233 to R237) -/

theorem addressStageC_finds (h : InHead .parsec s u) :
    (addressStageC u).Finds .parsec s (InHead .parsec s)
      (if frameN s < 7 then some ⟨2, 4, 4, 1⟩ else rest) rest := by
  have hstage : InHead .parsec s (u.enter .address) := ⟨h.beside, rfl, h.kept⟩
  rw [← hstage.frameLen]
  exact .insufficient hstage (by decide) fun _ => ⟨⟨h.beside, rfl, h.kept⟩, rfl⟩

theorem start2StageC_finds (h : InHead .parsec s u) :
    (start2StageC u).Finds .parsec s (InHead .parsec s)
      (if frameN s < 8 then some ⟨2, 4, 14, 7⟩ else if s.bufByte 7 ≠ 0x68#8 then some ⟨2, 1, 14, 7⟩ else rest)
      rest := by
  have hstage : InHead .parsec s (u.enter .start) := ⟨h.beside, rfl, h.kept⟩
  rw [← hstage.frameLen, ← hstage.bufByte]
  exact .insufficient hstage (by decide) fun _ => .guard hstage rfl fun _ => ⟨hstage, rfl⟩

theorem controlStageC_finds (h : InHead .parsec s u) :
    (controlStageC u).Finds .parsec s (InHead .parsec s)
      (if frameN s < 9 then some ⟨2, 4, 3, 8⟩ else rest) rest := by
  have hstage : InHead .parsec s (u.enter .control) := ⟨h.beside, rfl, h.kept⟩
  rw [← hstage.frameLen]
  exact .insufficient hstage (by decide) fun _ => ⟨⟨h.beside, rfl, h.kept⟩, rfl⟩

theorem lengthStageC_finds (h : InHead .parsec s u) :
    (lengthStageC u).Finds .parsec s (InHead .parsec s)
      (if frameN s < 10 then some ⟨2, 4, 2, 9⟩
        else if frameN s ≠ (s.bufByte 9).toNat + 12 then some ⟨2, 3, 2, 9⟩ else rest) rest := by
  have hstage : InHead .parsec s (u.enter .length) := ⟨h.beside, rfl, h.kept⟩
  have hfield : ((s.bufByte 9).setWidth 16).toNat = (s.bufByte 9).toNat :=
    BitVec.toNat_setWidth_of_le (by decide)
  rw [← hfield, ← hstage.frameLen, ← hstage.bufByte]
  exact .insufficient hstage (by decide) fun _ =>
    .guard ⟨h.beside, rfl, h.kept⟩ rfl fun _ => ⟨⟨h.beside, rfl, h.kept⟩, rfl⟩

theorem parsecHead_finds (hcap : frameN s ≤ s.cfg.val.bufCap) :
    ((((((bufCheck (issueBegin s)).bind fun s => startStage (parseBegin s)).bind addressStageC).bind
      start2StageC).bind controlStageC).bind lengthStageC).Finds .parsec s (InHead .parsec s) (headFaultC s) none :=
  ((((parseStart_finds (.inr (.inr rfl)) hcap).bind fun _ => addressStageC_finds).bind
    fun _ => start2StageC_finds).bind fun _ => controlStageC_finds).bind fun _ => lengthStageC_finds

end

/-! ### The command's end (R245, R296, R297) -/

/-- The rule's list of checks before the lookup, by command. -/
def headFault : Instr → State → Option ErrRegs
  | .parsea => headFaultA
  | .parseb => headFaultB
  | .parsec => headFaultC
  | _ => fun _ => none

section
variable {i : Instr} {s : State}

/-- Every list begins with START (R202). -/
theorem headFault_of_bad_start (hi : IsParse i) (h : frameN s = 0 ∨ s.bufByte 0 ≠ 0x68#8) :
    headFault i s = some (if frameN s = 0 then ⟨2, 4, 1, 0⟩ else ⟨2, 1, 1, 0⟩) := by
  have hstart : ∀ rest : Option ErrRegs,
      (if frameN s < 1 then some ⟨2, 4, 1, 0⟩ else if s.bufByte 0 ≠ 0x68#8 then some ⟨2, 1, 1, 0⟩ else rest)
        = some (if frameN s = 0 then ⟨2, 4, 1, 0⟩ else ⟨2, 1, 1, 0⟩) := fun rest => by
    by_cases hempty : frameN s = 0
    · rw [if_pos (by omega), if_pos hempty]
    · rw [if_neg (by omega), if_pos (h.resolve_left hempty), if_neg hempty]
  rcases hi with rfl | rfl | rfl
  all_goals exact hstart _

/-- The first failing check ends the command's pseudocode. -/
theorem commandBody_of_headFault (hi : IsParse i) (hcap : frameN s ≤ s.cfg.val.bufCap) {e : ErrRegs}
    (h : headFault i s = some e) (encoder : Bool) :
    ∃ x sub field off u, InHead i s u ∧ commandBody encoder i (issueBegin s) = .stop (raise x sub field off u)
      ∧ (raise x sub field off u).err = e := by
  rcases hi with rfl | rfl | rfl
  · exact (parseaHead_finds hcap).bind_eq_stop h _ _
  · exact (parsebHead_finds hcap).bind_eq_stop h _ _
  · exact (parsecHead_finds hcap).bind_eq_stop h _ _

theorem exec_of_headFault (hi : IsParse i) (hcap : frameN s ≤ s.cfg.val.bufCap) {e : ErrRegs}
    (h : headFault i s = some e) :
    ∃ t, exec i s = .next t ∧ t.status = ⟨false, true, true, false, false, false, false⟩ ∧ t.fsm = .error
      ∧ t.err = e ∧ t.cur = s.cur ∧ t.dp = s.dp ∧ (s.AtRest → t.ism = s.ism) ∧ FailedKeeps i s t := by
  obtain ⟨x, sub, field, off, u, ⟨hbeside, hparsing, hkept⟩, hbody, rfl⟩ :=
    commandBody_of_headFault hi hcap h s.cfg.val.hasEncoder
  simp only [Prod.mk.injEq] at hkept
  obtain ⟨hflags, hism, hcur, hdp⟩ := hkept
  obtain ⟨terr, tfsm, tstatus, tism, tcur, tdp, tbeside⟩ :=
    endsFailed_commandSpoil hi s.cfg.val.hasEncoder (raise x sub field off u)
  have hexec := exec_command (isCommand_of_isParse hi) s
  rw [issue_of_stop hbody] at hexec
  refine ⟨_, hexec, tstatus.trans ?_, tfsm.trans ?_, terr, tcur.trans hcur, tdp.trans hdp,
    fun ⟨_, _, hrest, _⟩ => tism.trans ?_, failedKeeps_of_beside hi (tbeside.trans hbeside)⟩
  · rw [raise_status, hflags]
    rfl
  · rw [raise_fsm, hparsing]
    rfl
  · have hwalking : u.walking = false := by rwa [State.walking, hism, ← State.walking]
    rw [raise_ism_of_rest hwalking, hism]

/-- A Protocol-A frame of 3 to 11 bytes without address lacks the first field that ends behind its trailer (R217). -/
theorem headFaultA_of_short (hmark : s.bufByte 0 = 0x68#8) (hmatch : leNum s 1 2 = frameN s) (hmin : 3 ≤ frameN s)
    (hmax : frameN s < 12) (haddr : 5 < frameN s → ¬ HasAddr s) :
    headFaultA s = some
      (if frameN s ≤ 5 then ⟨2, 4, 3, 3⟩ else if frameN s = 6 then ⟨2, 4, 9, 4⟩
        else if frameN s = 7 then ⟨2, 4, 10, 5⟩ else ⟨2, 4, 11, 6⟩) := by
  simp only [headFaultA]
  rw [if_neg (by omega), if_neg (not_not_intro hmark), if_neg (by omega), if_neg (not_not_intro hmatch)]
  by_cases hcontrol : frameN s ≤ 5
  · rw [if_pos (by omega), if_pos hcontrol]
  · have hno : ¬ HasAddr s := haddr (by omega)
    rw [if_neg (by omega), if_neg (mt And.left hno), if_neg (mt And.left hno), if_neg hcontrol,
      show funcAt s = 4 from if_neg hno]
    by_cases hfunc : frameN s = 6
    · rw [if_pos (by omega), if_pos hfunc]
      rfl
    rw [if_neg (by omega), if_neg hfunc]
    by_cases hseq : frameN s = 7
    · rw [if_pos (by omega), if_pos hseq]
      rfl
    · rw [if_neg (by omega), if_neg hseq, if_pos (by omega)]
      rfl

end
end Sys2Proof.Machine

open Sys2Proof Sys2Proof.Machine Sys2Proof.Spec

/-- Settles O58: each stage before the lookup makes its checks in the order of the rule's list. -/
theorem parseStartErrors : Obligations.ParseStartErrors := by
  intro i s hcap
  refine ⟨?_, fun hi hbad => ?_⟩
  · rintro e (⟨rfl, h⟩ | ⟨rfl, h⟩ | ⟨rfl, h⟩)
    · exact exec_of_headFault (.inl rfl) hcap h
    · exact exec_of_headFault (.inr (.inl rfl)) hcap h
    · exact exec_of_headFault (.inr (.inr rfl)) hcap h
  · obtain ⟨t, hexec, -, -, herr, -⟩ := exec_of_headFault hi hcap (headFault_of_bad_start hi hbad)
    exact ⟨t, hexec, herr⟩

/-- Settles O57: without an error every check before the lookup passes, so the fixed fields fit. -/
theorem smallestFramesA : Obligations.SmallestFramesA := by
  intro s hcap
  refine ⟨fun t hexec hnoerr => ?_, fun hmark hmatch hmin hmax haddr => ?_⟩
  · have hpass : headFaultA s = none := by
      by_contra hfault
      obtain ⟨e, he⟩ := Option.ne_none_iff_exists'.mp hfault
      obtain ⟨u, hu, hstatus, -⟩ := exec_of_headFault (i := .parsea) (.inl rfl) hcap he
      obtain rfl := Host.Outcome.next.inj (hexec.symm.trans hu)
      rw [hstatus] at hnoerr
      exact Bool.noConfusion hnoerr
    obtain ⟨-, -, hroom⟩ := headFaultA_eq_none.mp hpass
    rcases funcAt_cases s with ⟨_, ho⟩ | ⟨hno, ho⟩
    · exact ⟨by omega, fun _ => by omega⟩
    · exact ⟨by omega, fun h => absurd h hno⟩
  · have hfault := headFaultA_of_short hmark hmatch hmin hmax fun h => not_not_intro (haddr h)
    obtain ⟨t, hexec, hstatus, hfsm, herr, -⟩ := exec_of_headFault (i := .parsea) (.inl rfl) hcap hfault
    exact ⟨t, hexec, hfsm, congrArg Status.err hstatus, herr⟩
end

section
/-! SUPPORT. ENCA from its issue to its end, and the frame that it stores byte by byte. -/

namespace Sys2Proof.Machine

open Sys2Proof.Spec

/-! ### The bytes of the frame (R262) -/

section
variable {s t : State}

/-- A memory filled from index 0 reads as the bytes it was filled with. -/
theorem txByte_of_stored {bs : List Byte} {i : Nat} {b : Byte} (h : t.tx = Memory.ofBytes 0 bs)
    (hb : bs[i]? = some b) : t.txByte i = b := by
  rw [State.txByte, h, Memory.get?_ofBytes, if_pos (Nat.zero_le i), Nat.sub_zero, hb, Option.getD_some]

/-- Behind the three bytes of start and length stand the bytes that the checksum covers. -/
theorem encFrame_body {i : Nat} (h : i < 7 + s.encPayloadLen) : s.encFrame[3 + i]? = s.encBody[i]? := by
  rw [State.encFrame, List.append_assoc, List.getElem?_append_right (by simp), List.getElem?_append_left]
  · simp
  · rw [encBody_length]
    simpa using h

theorem encFrame_trailer (i : Nat) :
    s.encFrame[10 + s.encPayloadLen + i]? = [sum8 s.encBody, 0x16#8][i]? := by
  rw [State.encFrame, List.getElem?_append_right]
  all_goals simp only [List.length_append, List.length_cons, List.length_nil, encBody_length]
  · congr 1
    omega
  · omega

theorem encBody_ident {i : Nat} (h : i < 4) :
    s.encBody[3 + i]? = some (BitVec.ofNat 8 (s.op.opIdent.toNat / 256 ^ i)) := by
  have hbyte : ∀ lo, s.op.opIdent.extractLsb' lo 8 = BitVec.ofNat 8 (s.op.opIdent.toNat / 2 ^ lo) :=
    fun lo => extract_eq_ofNat lo 8 s.op.opIdent
  interval_cases i
  all_goals exact congrArg some (hbyte _)

theorem encBody_payload {i : Nat} (h : i < s.encPayloadLen) :
    s.encBody[7 + i]? = some (s.bufByte (s.op.opStart.toNat + i)) := by
  have hi : i < (s.bufRange s.op.opStart.toNat s.encPayloadLen).length := by rwa [bufRange_length]
  rw [State.encBody, List.getElem?_append_right (by simp), ← bufRange_getElem s _ _ i hi,
    ← List.getElem?_eq_getElem hi]
  simp

/-- The issue changes nothing that the encoder reads (R281). -/
theorem encFrame_issueBegin (s : State) : (issueBegin s).encFrame = s.encFrame := by
  have hpayload : (issueBegin s).bufRange s.op.opStart.toNat s.encPayloadLen
      = s.bufRange s.op.opStart.toNat s.encPayloadLen := bufRange_congr fun _ _ _ => rfl
  have hbody : (issueBegin s).encBody = s.encBody := congrArg (_ ++ ·) hpayload
  rw [State.encFrame, hbody]
  rfl

/-- A memory reads as the frame that ENCA assembles from the operands of s (R262). -/
structure ReadsFrame (s : State) (read : Nat → Byte) : Prop where
  start : read 0 = 0x68#8
  lengthLow : read 1 = BitVec.ofNat 8 (s.encFrameLen % 256)
  lengthHigh : read 2 = BitVec.ofNat 8 (s.encFrameLen / 256)
  control : read 3 = s.ctrlEnc s.op.opDir
  func : read 4 = s.op.opFunc
  seq : read 5 = s.seq
  ident : ∀ i, i < 4 → read (6 + i) = BitVec.ofNat 8 (s.op.opIdent.toNat / 256 ^ i)
  payload : ∀ i, i < s.encPayloadLen → read (10 + i) = s.bufByte (s.op.opStart.toNat + i)
  checksum : read (10 + s.encPayloadLen)
    = BitVec.ofNat 8 ((List.range (7 + s.encPayloadLen)).map fun i => (read (3 + i)).toNat).sum
  endMark : read (11 + s.encPayloadLen) = 0x16#8

/-- The checksum covers the bytes that stand from index 3 on (R114). -/
theorem encBody_eq_map (h : t.tx = Memory.ofBytes 0 s.encFrame) :
    s.encBody = (List.range (7 + s.encPayloadLen)).map fun i => t.txByte (3 + i) := by
  refine List.ext_getElem (by simp [encBody_length]) fun i hi _ => ?_
  have hbyte : s.encFrame[3 + i]? = some s.encBody[i] := by
    rw [encFrame_body (encBody_length s ▸ hi), List.getElem?_eq_getElem hi]
  rw [List.getElem_map, List.getElem_range, txByte_of_stored h hbyte]

theorem readsFrame_of_stored (h : t.tx = Memory.ofBytes 0 s.encFrame) : ReadsFrame s t.txByte where
  start := txByte_of_stored h rfl
  lengthLow := by
    have hlow : BitVec.ofNat 8 (s.encFrameLen % 256) = BitVec.ofNat 8 s.encFrameLen :=
      BitVec.eq_of_toNat_eq (by simp)
    exact (txByte_of_stored h rfl).trans hlow.symm
  lengthHigh := txByte_of_stored h rfl
  control := txByte_of_stored h rfl
  func := txByte_of_stored h rfl
  seq := txByte_of_stored h rfl
  ident i hi := by
    rw [show 6 + i = 3 + (3 + i) by omega]
    exact txByte_of_stored h ((encFrame_body (by omega)).trans (encBody_ident hi))
  payload i hi := by
    rw [show 10 + i = 3 + (7 + i) by omega]
    exact txByte_of_stored h ((encFrame_body (by omega)).trans (encBody_payload hi))
  checksum := by
    refine (txByte_of_stored h (encFrame_trailer 0)).trans (BitVec.eq_of_toNat_eq ?_)
    rw [sum8_toNat, BitVec.toNat_ofNat, encBody_eq_map h, List.map_map]
    rfl
  endMark := by
    rw [show 11 + s.encPayloadLen = 10 + s.encPayloadLen + 1 by omega]
    exact txByte_of_stored h (encFrame_trailer 1)

/-! ### The ends of ENCA's pseudocode (R261, R264) -/

/-- On an allowed range with BUF_LEN inside BUF, the issue check and the range check pass. -/
theorem checks_of_allowed (h : RangeAllowed s) : bufCheck s = .cont s ∧ ¬ s.op.rangeBad = true := by
  obtain ⟨horder, hend, hcap⟩ := h
  exact ⟨bufCheck_of_fits hcap, mt rangeBad_iff.mp (not_or.mpr ⟨Nat.not_lt.mpr horder, Nat.not_lt.mpr hend⟩)⟩

theorem encaBody_of_fits (h : RangeAllowed s) (hfits : s.encFrameLen ≤ s.cfg.val.txCap) :
    encaBody s = .cont { storeFrame s with seq := s.seq + 1#8 } := by
  obtain ⟨hcheck, hgood⟩ := checks_of_allowed h
  exact bind_of_cont hcheck (guard_passes hgood (guard_passes (Nat.not_lt.mpr hfits) rfl))

theorem encaBody_of_bad_range (hcap : s.op.bufLen.toNat ≤ s.cfg.val.bufCap)
    (hbad : s.op.opEnd.toNat < s.op.opStart.toNat ∨ s.op.bufLen.toNat < s.op.opEnd.toNat) :
    encaBody s = .stop (raise .range 1 0 s.op.opEnd.toNat s) :=
  bind_of_cont (bufCheck_of_fits hcap) (if_pos (rangeBad_iff.mpr hbad))

theorem encaBody_of_overflow (h : RangeAllowed s) (hover : s.cfg.val.txCap < s.encFrameLen) :
    encaBody s = .stop (raise .encodeOverflow 0 0 (s.encFrameLen % 65536) s) := by
  obtain ⟨hcheck, hgood⟩ := checks_of_allowed h
  exact bind_of_cont hcheck (guard_passes hgood (if_pos hover))

/-- The state after an ENCA that has stored its frame. -/
def encoded (s : State) : State :=
  { s with
    status := done s.status
    err := ErrRegs.zero
    seq := s.seq + 1#8
    res := { s.res with txLen := BitVec.ofNat 16 s.encFrameLen }
    tx := Memory.ofBytes 0 s.encFrame
    txGen := s.draws
    draws := s.draws + 1 }

theorem exec_enca (henc : s.cfg.val.hasEncoder = true) : exec .enca s = .next (issue spoilEnca encaBody s) :=
  congrArg Host.Outcome.next (if_pos henc)

theorem exec_enca_of_fits (henc : s.cfg.val.hasEncoder = true) (h : RangeAllowed s)
    (hfits : s.encFrameLen ≤ s.cfg.val.txCap) : exec .enca s = .next (encoded s) := by
  rw [exec_enca henc, issue_of_cont (encaBody_of_fits (s := issueBegin s) h hfits), encoded, ← encFrame_issueBegin]
  rfl

/-- An ENCA that raised: TXBUF and TX_LEN are left open, SEQ and all else stand (R264, R297). -/
theorem exec_enca_of_raise (henc : s.cfg.val.hasEncoder = true) (hrest : s.AtRest) {x : ErrName} {sub : Byte}
    {field : Half} {off : Nat} (hoff : off < 65536)
    (hbody : encaBody (issueBegin s) = .stop (raise x sub field off (issueBegin s))) :
    ∃ txLen m g d, exec .enca s = .next
      { s with
        status := failed s.status
        err := ⟨x.code, sub, field, BitVec.ofNat 16 off⟩
        res := { s.res with txLen := txLen }
        tx := m
        txGen := g
        draws := d } := by
  rw [raise_issued_of_rest hrest hoff] at hbody
  exact ⟨_, _, _, _, (exec_enca henc).trans (congrArg Host.Outcome.next (issue_of_stop hbody))⟩

end
end Sys2Proof.Machine

open Sys2Proof Sys2Proof.Machine Sys2Proof.Spec

/-- Settles O59: the frame's bytes are the list that the pseudocode assembles, and its two checks raise before SEQ is
counted. -/
theorem encaResult : Obligations.EncaResult := by
  intro s henc hcap p
  refine ⟨fun hrange hfits => ?_, fun hrest hbad => ?_, fun hrest hrange hover => ?_⟩
  · have hread : ReadsFrame s (encoded s).txByte := readsFrame_of_stored rfl
    exact ⟨encoded s, exec_enca_of_fits henc hrange hfits, rfl, hread.start, hread.lengthLow, hread.lengthHigh,
      hread.control, hread.func, hread.seq, hread.ident, hread.payload, hread.checksum, hread.endMark⟩
  · have hoff : BitVec.ofNat 16 s.op.opEnd.toNat = s.op.opEnd := by simp
    rw [← hoff]
    exact exec_enca_of_raise henc hrest s.op.opEnd.isLt (encaBody_of_bad_range (s := issueBegin s) hcap hbad)
  · exact exec_enca_of_raise henc hrest (Nat.mod_lt _ (by decide))
      (encaBody_of_overflow (s := issueBegin s) hrange hover)
end

section
/-! SUPPORT. The frame that ENCA stores is a Protocol-A frame without address, whose fields are ENCA's inputs; and what
PARSEA leaves of the frame's fields once its payload is delegated. -/

namespace Sys2Proof.Machine

open Sys2Proof.Spec

/-! ### When ENCA has stored a frame (R261, R263, R264) -/

theorem txCap_le (s : State) : s.cfg.val.txCap ≤ 65535 := by
  have h := s.cfg.property
  simp only [Config.wf, Bool.and_eq_true, decide_eq_true_eq] at h
  obtain ⟨⟨⟨⟨⟨_, htx⟩, _⟩, _⟩, _⟩, _⟩ := h
  exact htx.2

section
variable {s t : State}

/-- ENCA goes on to its end only on a legal range whose frame fits. -/
theorem encaBody_checks (s : State) :
    (encaBody s).Meets (fun _ => RangeAllowed s ∧ s.encFrameLen ≤ s.cfg.val.txCap) (· = s) := by
  refine (bufCheck_meets s).bind ?_
  rintro t ⟨rfl, hcap⟩
  refine .guard rfl fun hgood => .guard rfl fun hfits => ⟨?_, Nat.not_lt.mp hfits⟩
  obtain ⟨horder, hend⟩ := rangeBad_eq_false hgood
  exact ⟨horder, hend, hcap⟩

/-- An ENCA without an error has stored its frame. -/
theorem encoded_of_exec (henc : s.cfg.val.hasEncoder = true) (h : exec .enca s = .next t)
    (hok : t.status.err = false) : s.encFrameLen ≤ s.cfg.val.txCap ∧ t = encoded s := by
  have hmeets := encaBody_checks (issueBegin s)
  rcases issue_cases spoilEnca encaBody s with ⟨u, hu, -⟩ | ⟨u, hu, hend⟩
  · rw [hu] at hmeets
    obtain ⟨hrange, hfits⟩ := hmeets
    exact ⟨hfits, Host.Outcome.next.inj (h.symm.trans (exec_enca_of_fits henc hrange hfits))⟩
  · rw [hu] at hmeets
    obtain ⟨x, sub, field, off, v, -, rfl⟩ := hmeets
    obtain rfl := Host.Outcome.next.inj (h.symm.trans (exec_enca henc))
    rw [hend] at hok
    exact Bool.noConfusion hok

/-- A copy of the frame's bytes is the frame. -/
theorem ReadsFrame.copy {read read' : Nat → Byte} (h : ReadsFrame s read)
    (hcopy : ∀ i, i < s.encFrameLen → read' i = read i) : ReadsFrame s read' := by
  have hcopy' : ∀ i, i < 12 + s.encPayloadLen → read' i = read i := hcopy
  have hbody : ((List.range (7 + s.encPayloadLen)).map fun i => (read' (3 + i)).toNat)
      = (List.range (7 + s.encPayloadLen)).map fun i => (read (3 + i)).toNat :=
    List.map_congr_left fun i hi => by rw [hcopy' _ (by have := List.mem_range.mp hi; omega)]
  refine ⟨?_, ?_, ?_, ?_, ?_, ?_, fun i hi => ?_, fun i hi => ?_, ?_, ?_⟩
  all_goals rw [hcopy' _ (by omega)]
  · exact h.start
  · exact h.lengthLow
  · exact h.lengthHigh
  · exact h.control
  · exact h.func
  · exact h.seq
  · exact h.ident i hi
  · exact h.payload i hi
  · rw [hbody]
    exact h.checksum
  · exact h.endMark

end

/-! ### The control byte carries no address (R207, R263) -/

/-- A byte without the bits of a range has the value 0 there (R140). -/
theorem bitField_of_masked {b : Byte} {r : BitRange} (h : b &&& r.mask = 0#8) : bitField b r.start r.stop = 0#8 := by
  rw [← extract_eq_bitField]
  apply BitVec.eq_of_getLsbD_eq
  intro i _
  have hbit : (b &&& r.mask).getLsbD (r.start.toNat + i) = false := by rw [h, BitVec.getLsbD_zero]
  simp only [BitRange.mask, BitVec.getLsbD_and, BitVec.getLsbD_shiftLeft] at hbit
  simp only [extract, extractWidth, BitVec.getLsbD_and, BitVec.getLsbD_ushiftRight, BitVec.getLsbD_zero]
  by_cases hin : r.start.toNat + i < 8
  · simpa [hin] using hbit
  · rw [BitVec.getLsbD_of_ge b _ (Nat.not_lt.mp hin), Bool.false_and]

/-- Both values of CTRL_A_ENC say that the frame carries no address. -/
theorem ctlField_ctrlEnc (s : State) (dir : BitVec 1) : ctlField (s.ctrlEnc dir) s.cfg.val.layoutA.addr = 0#8 := by
  have h := s.cfg.property
  simp only [Config.wf, Bool.and_eq_true, decide_eq_true_eq] at h
  obtain ⟨_, h0, h1⟩ := h
  have hmasked : s.ctrlEnc dir &&& s.cfg.val.addrMaskA = 0#8 := by
    unfold State.ctrlEnc
    split
    · exact h0
    · exact h1
  unfold Config.addrMaskA at hmasked
  cases haddr : s.cfg.val.layoutA.addr with
  | none => rfl
  | some r =>
    rw [haddr] at hmasked
    exact bitField_of_masked hmasked

/-! ### A copied frame in BUF (R97, R206, R266) -/

/-- The k lowest digits of a number in base 256 give its low part (R10). -/
theorem sum_digits (n k : Nat) : ((List.range k).map fun i => n / 256 ^ i % 256 * 256 ^ i).sum = n % 256 ^ k := by
  induction k with
  | zero => simp [Nat.mod_one]
  | succ k ih =>
    rw [List.range_succ, List.map_append, List.sum_append, ih, Nat.mod_pow_succ, Nat.mul_comm (256 ^ k)]
    simp

/-- BUF holds the frame that ENCA assembles from the operands of s, under the same configuration. -/
structure HoldsFrame (s u : State) : Prop where
  cfg : u.cfg = s.cfg
  length : frameN u = s.encFrameLen
  fits : frameN u ≤ u.cfg.val.bufCap
  reads : ReadsFrame s u.bufByte

section
variable {s u : State} (h : HoldsFrame s u)
include h

theorem HoldsFrame.frameN_eq : frameN u = 12 + s.encPayloadLen := h.length

theorem HoldsFrame.leNum_length : leNum u 1 2 = frameN u := by
  have hlt : frameN u < 65536 := u.op.bufLen.isLt
  have hsum : leNum u 1 2 = (u.bufByte 1).toNat + (u.bufByte 2).toNat * 256 := by
    simp [leNum, List.range_succ]
  rw [hsum, h.reads.lengthLow, h.reads.lengthHigh, ← h.length, BitVec.toNat_ofNat, BitVec.toNat_ofNat]
  omega

theorem HoldsFrame.leNum_ident : leNum u 6 4 = s.op.opIdent.toNat := by
  have hbytes : ∀ i ∈ List.range 4,
      (u.bufByte (6 + i)).toNat * 256 ^ i = s.op.opIdent.toNat / 256 ^ i % 256 * 256 ^ i := fun i hi => by
    rw [h.reads.ident i (List.mem_range.mp hi), BitVec.toNat_ofNat]
  rw [leNum, List.map_congr_left hbytes, sum_digits]
  exact Nat.mod_eq_of_lt s.op.opIdent.isLt

theorem HoldsFrame.no_address : ¬ HasAddr u := by
  rw [HasAddr, h.reads.control, h.cfg, ctlField_ctrlEnc]
  exact not_not_intro rfl

theorem HoldsFrame.funcAt_eq : funcAt u = 4 := if_neg h.no_address

theorem HoldsFrame.bodyA : BodyA u := by
  have hlen := h.frameN_eq
  refine ⟨h.fits, headFaultA_eq_none.mpr ⟨h.reads.start, h.leNum_length, ?_⟩⟩
  rw [h.funcAt_eq]
  omega

theorem HoldsFrame.keyAt_eq : keyAt u (funcAt u) = s.op.opFunc.toNat * 2 ^ 32 + s.op.opIdent.toNat := by
  rw [h.funcAt_eq, keyAt, h.reads.func, h.leNum_ident]

theorem HoldsFrame.endMark : EndMark u := by
  have hlast : frameN u - 1 = 11 + s.encPayloadLen := by
    have := h.frameN_eq
    omega
  rw [EndMark, hlast]
  exact h.reads.endMark

/-- The checksum that PARSEA computes is the one declared (R215). -/
theorem HoldsFrame.checksum :
    (u.bufByte (frameN u - 2)).setWidth 16 = BitVec.ofNat 16 (byteSum u 3 (frameN u - 5) % 256) := by
  have hlen := h.frameN_eq
  rw [setWidth_eq_ofNat_iff (by omega), show frameN u - 2 = 10 + s.encPayloadLen by omega,
    show frameN u - 5 = 7 + s.encPayloadLen by omega, h.reads.checksum, BitVec.toNat_ofNat]
  rfl

end

/-! ### From the copied frame to the end of PARSEA (R214, R238, R266) -/

section
variable {s u w : State}

/-- Delegating the payload leaves BUF and the results but REM and REC_CNT as the stages before left them. -/
theorem results_of_delegated {k : Option Nat} {p : State} (hcfg : p.cfg = u.cfg) (h : delegated u k p = .cont w) :
    w.buf = p.buf ∧ { w.res with rem := 0#16, recCnt := 0#16 } = { p.res with rem := 0#16, recCnt := 0#16 } := by
  have hmeets := delegate_beside k p
  rw [delegate_eq_delegated hcfg, h] at hmeets
  obtain ⟨hbeside, -⟩ := hmeets
  exact ⟨view_eq State.buf hbeside,
    view_eq (fun v => { v.res with rem := 0#16, recCnt := 0#16 }) hbeside⟩

/-- An error of the delegated payload is the interpreter's, and the key was a hit (R238, R290). -/
theorem interpCode_of_delegated {k : Nat} {p : State} (h : delegated u (some k) p = .stop w) :
    InterpCode w.err.code ∧ ¬ Misses u k := by
  refine ⟨?_, fun hmiss => Stage.noConfusion ((delegated_of_misses hmiss).symm.trans h)⟩
  unfold delegated at h
  split at h
  · exact Stage.noConfusion h
  · next base _ =>
    rcases interpretationAlwaysEnds base p with ⟨t, ht, -⟩ | ⟨t, ht, -, -, hcode⟩
    · exact Stage.noConfusion (ht.symm.trans h)
    · obtain rfl := Stage.stop.inj (ht.symm.trans h)
      exact hcode

/-- PARSEA has ended on the frame that ENCA assembled in s, with ENCA's inputs in its results (R266). -/
structure ParsedBack (s v : State) : Prop where
  fsm : v.fsm = .done
  noError : v.status.err = false
  checked : v.status.ckValid = true
  length : v.res.fLen.toNat = s.encFrameLen
  control : v.res.fCtrl = s.ctrlEnc s.op.opDir
  noSource : v.res.addr0Len = 0#5
  noDestination : v.res.addr1Len = 0#5
  func : v.res.fFunc = s.op.opFunc
  seq : v.res.fSeq = s.seq
  ident : v.res.fIdent = s.op.opIdent
  range : v.res.pStart.toNat + s.encPayloadLen = v.res.pEnd.toNat
  payload : ∀ i, i < s.encPayloadLen → v.bufByte (v.res.pStart.toNat + i) = s.bufByte (s.op.opStart.toNat + i)

theorem HoldsFrame.parsedBack (h : HoldsFrame s u)
    (hw : delegated u (some (keyAt u (funcAt u))) (payloadStateA u) = .cont w) :
    ∃ v, exec .parsea u = .next v ∧ ParsedBack s v := by
  obtain ⟨hbuf, hres⟩ := results_of_delegated (p := payloadStateA u) rfl hw
  obtain ⟨hends, -⟩ := parseaHit u h.bodyA
  have hlen := h.frameN_eq
  have hlt : frameN u < 65536 := u.op.bufLen.isLt
  have ho := h.funcAt_eq
  have hstart : w.res.pStart = 10#16 :=
    (congrArg ResRegs.pStart hres).trans (congrArg (fun o => BitVec.ofNat 16 (o + 6)) ho)
  have hstop : w.res.pEnd = BitVec.ofNat 16 (frameN u - 2) := congrArg ResRegs.pEnd hres
  have hbyte : ∀ a, w.bufByte a = u.bufByte a := bufByte_of_buf hbuf
  refine ⟨_, hends w hw h.endMark, ⟨rfl, rfl, ?_, ?_, ?_, ?_, ?_, ?_, ?_, ?_, ?_, fun i hi => ?_⟩⟩
  · exact decide_eq_true h.checksum
  · exact (congrArg (fun r => r.fLen.toNat) hres).trans h.length
  · exact (congrArg ResRegs.fCtrl hres).trans h.reads.control
  · exact (congrArg ResRegs.addr0Len hres).trans (if_neg h.no_address)
  · exact (congrArg ResRegs.addr1Len hres).trans (if_neg h.no_address)
  · exact (congrArg ResRegs.fFunc hres).trans ((congrArg u.bufByte ho).trans h.reads.func)
  · exact (congrArg ResRegs.fSeq hres).trans ((congrArg (fun o => u.bufByte (o + 1)) ho).trans h.reads.seq)
  · refine (congrArg ResRegs.fIdent hres).trans ((congrArg (fun o => BitVec.ofNat 32 (leNum u (o + 2) 4)) ho).trans ?_)
    rw [h.leNum_ident, BitVec.ofNat_toNat, BitVec.setWidth_eq]
  · show w.res.pStart.toNat + _ = w.res.pEnd.toNat
    rw [hstart, hstop, BitVec.toNat_ofNat, BitVec.toNat_ofNat]
    omega
  · show w.bufByte (w.res.pStart.toNat + i) = _
    rw [hstart, hbyte]
    exact h.reads.payload i hi

end
end Sys2Proof.Machine

open Sys2Proof Sys2Proof.Machine Sys2Proof.Spec

/-- Settles O60: the stored frame passes PARSEA's checks, so only the interpretation of its payload can raise. -/
theorem encodeThenParse : Obligations.EncodeThenParse := by
  intro s t u henc hexec hok hcfg hlen hcap hcopy
  obtain ⟨hfits, rfl⟩ := encoded_of_exec henc hexec hok
  have htx : (encoded s).res.txLen.toNat = s.encFrameLen :=
    Nat.mod_eq_of_lt (Nat.lt_of_le_of_lt (Nat.le_trans hfits (txCap_le s)) (by decide))
  rw [htx] at hcopy
  have hread : ReadsFrame s (encoded s).txByte := readsFrame_of_stored rfl
  have hframe : HoldsFrame s u := ⟨hcfg, (congrArg BitVec.toNat hlen).trans htx, hcap, hread.copy hcopy⟩
  cases hdeleg : delegated u (some (keyAt u (funcAt u))) (payloadStateA u) with
  | cont w =>
    obtain ⟨v, hv, hback⟩ := hframe.parsedBack hdeleg
    exact ⟨v, hv, fun _ => hback.noError, .inr ⟨hback.fsm, hback.noError, hback.checked,
      BitVec.eq_of_toNat_eq (hback.length.trans htx.symm), hback.control, hback.noSource, hback.noDestination,
      hback.func, hback.seq, hback.ident, hback.range, hback.payload⟩⟩
  | stop w =>
    obtain ⟨hcode, hhit⟩ := interpCode_of_delegated hdeleg
    obtain ⟨-, -, hfails⟩ := parseaHit u hframe.bodyA
    obtain ⟨v, hv, herr, -, hstatus, -⟩ := hfails w hdeleg
    refine ⟨v, hv, fun hmiss => absurd ?_ hhit, .inl ⟨congrArg Status.err hstatus, ?_⟩⟩
    · rw [hframe.keyAt_eq, Misses, hcfg]
      exact hmiss
    · rw [herr]
      exact hcode
end

section
/-! SUPPORT. Accesses while BUSY = 1, how a command that owns REC_VALID leaves it, and the sub-3 check of the commands
that read BUF. -/

namespace Sys2Proof.Machine

open Sys2Proof.Spec

/-! ### Accesses while BUSY = 1 (R283, R338) -/

section
variable {a : HostAccess} {s : State}

theorem isPoll_iff : a.isPoll = true ↔ a = .regRead 0x01#8 := by
  cases a with
  | regRead num => simp [HostAccess.isPoll]
  | _ => simp [HostAccess.isPoll]

theorem access_of_busy (hbusy : s.status.busy = true) (ha : a ≠ .regRead 0x01#8) :
    access a s = .fault .accessWhileBusy := by
  have hnot : a.isPoll = false := Bool.eq_false_iff.mpr (mt isPoll_iff.mp ha)
  simp [access, hbusy, hnot]

/-- A STATUS poll answers whether a command is running or not. -/
theorem access_poll (s : State) :
    access (.regRead 0x01#8) s = .next (answer (.reg (s.status.toByte.setWidth 32)) s) := by
  have hpoll : ¬ (s.status.busy && !(HostAccess.regRead 0x01#8).isPoll) = true := by
    simp [isPoll_iff.mpr rfl]
  exact if_neg hpoll

end

/-! ### REC_VALID after an error (R282, R297) -/

section
variable {i : Instr} {s t : State}

/-- ERR lies in every command's frame, so a command whose pseudocode goes to its end leaves it as issue did. -/
theorem err_of_commandBody_cont (hi : IsCommand i)
    (h : commandBody s.cfg.val.hasEncoder i (issueBegin s) = .cont t) : t.status.err = false := by
  have hbody := commandBody_meets hi (issueBegin s)
  rw [issueBegin_cfg, h] at hbody
  obtain ⟨hbeside, -⟩ := hbody
  exact view_eq (fun u => u.status.err) hbeside (by cases i <;> exact fun _ => rfl)

/-- A command that ends with ERR = 1 has raised, and what R297 says is unspecified has been left open. -/
theorem exec_command_of_err (hi : IsCommand i) (h : exec i s = .next t) (herr : t.status.err = true) :
    ∃ e u, t = issueEnd (commandSpoil e i u) := by
  obtain rfl := Host.Outcome.next.inj ((exec_command hi s).symm.trans h)
  rcases issue_cases (commandSpoil s.cfg.val.hasEncoder i) (commandBody s.cfg.val.hasEncoder i) s with
    ⟨u, hu, hend⟩ | ⟨u, -, hend⟩
  · rw [hend] at herr
    exact absurd ((err_of_commandBody_cont hi hu).symm.trans herr) Bool.false_ne_true
  · exact ⟨_, u, hend⟩

theorem isCommand_of_owner (hi : IsParse i ∨ i = .interp ∨ i = .bitc) : IsCommand i := by
  rcases hi with hparse | rfl | rfl
  · exact isCommand_of_isParse hparse
  · exact ⟨_, rfl⟩
  · exact ⟨_, rfl⟩

/-- The commands that own REC_VALID leave REC open on an error, and with it the flag at 0. -/
theorem recValid_commandSpoil (hi : IsParse i ∨ i = .interp ∨ i = .bitc) (e : Bool) (u : State) :
    (commandSpoil e i u).status.recValid = false := by
  rcases hi with (rfl | rfl | rfl) | rfl | rfl
  all_goals rfl

end

/-! ### BUF_LEN past BUF_CAP (R281, R301) -/

/-- The commands that read BUF; CHKSUM and CRC16 read none of it on an empty range. -/
def ReadsBuf (i : Instr) (s : State) : Prop :=
  i = .interp ∨ IsParse i ∨ (i = .enca ∧ s.cfg.val.hasEncoder = true)
    ∨ ((i = .chksum ∨ i = .crc16) ∧ s.op.opStart.toNat < s.op.opEnd.toNat)

section
variable {i : Instr} {s : State}

theorem ReadsBuf.isCommand (h : ReadsBuf i s) : IsCommand i := by
  rcases h with rfl | hparse | ⟨rfl, -⟩ | ⟨rfl | rfl, -⟩
  case inr.inl => exact isCommand_of_isParse hparse
  all_goals exact ⟨_, rfl⟩

theorem bufCheck_past_capacity (h : s.cfg.val.bufCap < s.op.bufLen.toNat) :
    bufCheck s = .stop (raise .range 3 0 s.op.bufLen.toNat s) :=
  if_pos h

/-- A sequence ends where its first part has raised. -/
theorem bind_of_stop {x : Stage} {f : State → Stage} {t : State} (hx : x = .stop t) : x.bind f = .stop t := by
  rw [hx, bind_stop]

/-- The check comes first in every command that reads BUF, but for the test of CHKSUM and CRC16 for an empty range. -/
theorem ReadsBuf.body_past_capacity (h : ReadsBuf i s) (hcap : s.cfg.val.bufCap < s.op.bufLen.toNat) :
    commandBody s.cfg.val.hasEncoder i s = .stop (raise .range 3 0 s.op.bufLen.toNat s) := by
  have hcheck := bufCheck_past_capacity hcap
  rcases h with rfl | (rfl | rfl | rfl) | ⟨rfl, henc⟩ | ⟨rfl | rfl, hrange⟩
  case inl => exact bind_of_stop hcheck
  case inr.inl.inl | inr.inl.inr.inl | inr.inl.inr.inr =>
    simp only [commandBody, parseaBody, parsebBody, parsecBody, hcheck, bind_stop]
  case inr.inr.inl =>
    rw [henc]
    exact bind_of_stop hcheck
  all_goals exact guard_passes (mt rangeEmpty_iff.mp (Nat.not_le.mpr hrange)) (bind_of_stop hcheck)

/-- A command that reads BUF ends with the sub-3 error before it starts, and but for what R297 leaves open nothing has
changed. -/
theorem ReadsBuf.exec_past_capacity (h : ReadsBuf i s) (hrest : s.AtRest)
    (hcap : s.cfg.val.bufCap < s.op.bufLen.toNat) :
    ∃ t, exec i s = .next t
      ∧ t.besideSpoiled = { s with status := failed s.status, err := ⟨8, 3, 0, s.op.bufLen⟩ }.besideSpoiled := by
  have hbody : commandBody s.cfg.val.hasEncoder i (issueBegin s)
      = .stop { issueBegin s with status := failed s.status, err := ⟨8, 3, 0, s.op.bufLen⟩ } := by
    rw [← raise_range_of_rest hrest]
    exact ReadsBuf.body_past_capacity (s := issueBegin s) h hcap
  refine ⟨_, exec_command h.isCommand s, ?_⟩
  rw [issue_of_stop hbody]
  exact view_eq (fun u => (issueEnd u).besideSpoiled) (besideSpoiled_commandSpoil s.cfg.val.hasEncoder i _)

end
end Sys2Proof.Machine

open Sys2Proof Sys2Proof.Machine Sys2Proof.Spec

/-- Settles O25: NOP's pseudocode is empty, so only issue and its end act. -/
theorem nopResult : Obligations.NopResult := fun _ =>
  congrArg Host.Outcome.next (issue_of_cont (body := .cont) rfl)

/-- Settles O8: at BUSY = 1 the port lets a poll through and nothing else. -/
theorem busyAccessStops : Obligations.BusyAccessStops := by
  intro s a rest hbusy hinbox
  rw [step_cons hinbox]
  refine ⟨fun ha => access_of_busy hbusy ha, ?_⟩
  rintro rfl
  exact access_poll _

/-- Settles O21: ERR = 1 means that the command raised, and what it then leaves open includes REC. -/
theorem failedOwnersClearRecValid : Obligations.FailedOwnersClearRecValid := by
  intro i s t howner h herr
  obtain ⟨e, u, rfl⟩ := exec_command_of_err (isCommand_of_owner howner) h herr
  exact recValid_commandSpoil howner e u

/-- Settles O24: the sub-3 check is the first to raise; an empty range of CHKSUM or CRC16 never reaches it. -/
theorem bufLenPastCapacity : Obligations.BufLenPastCapacity := by
  intro i s hrest hcap
  refine ⟨fun hreads => ?_, fun hi hempty => ?_⟩
  · obtain ⟨t, hexec, hbeside⟩ := ReadsBuf.exec_past_capacity hreads hrest hcap
    have hview := view_eq (fun u => (u.err, u.status.err, u.fsm, u.ism, u.cur, u.dp, u.seq)) hbeside
    simp only [Prod.mk.injEq] at hview
    exact ⟨t, hexec, hview⟩
  · obtain ⟨hchksum, -⟩ := chksumResult s
    obtain ⟨hcrc16, -⟩ := crc16Result s
    rcases hi with rfl | rfl
    · exact ⟨_, hchksum hempty, rfl, rfl⟩
    · exact ⟨_, hcrc16 hempty, rfl, rfl⟩
end

section
/-! SUPPORT. The step with no host access to come (R322, R332). -/

namespace Sys2Proof.Machine

/-- Only a host access moves the FCC: with none to come, the step waits. Beside `step_cons`, the other case of `step`. -/
theorem step_nil {s : State} (h : s.inbox = []) : step s = .next s := by
  rw [step, takeAccess, h]

end Sys2Proof.Machine

open Sys2Proof.Machine

/-- Settles O7: it is the step's case of no access to come. -/
theorem idleStepWaits : Obligations.IdleStepWaits := fun _ hidle => step_nil hidle
end
